-- ==== Sys2Proof/Word.lean ====
section
/-! DEFINITION. The word types of the machine: bytes, 16-bit words and 2-bit pixel values (spec 00_scope.md section 5.1). -/

namespace Sys2Proof

/-- An 8-bit value: one register, one memory byte (10_state.md R10, R26). -/
abbrev Byte := BitVec 8

/-- A 16-bit value: an address, PC, SP or a register pair (10_state.md R11, R16, R17). -/
abbrev Word := BitVec 16

/-- A 2-bit value: a pixel value before the palette or a shade after it (50_lcd_ppu.md R300, R310). -/
abbrev Shade := BitVec 2

end Sys2Proof
end

