-- ==== Sys2Proof/Machine/Bits.lean ====
section
/-! DEFINITION. Bit-field, byte-order and sign-extension helpers (spec 00_scope.md section 5.1). -/

namespace Sys2Proof.Machine

/-- `v[15:8]`. -/
def hiByte (v : Word) : Byte := v.extractLsb' 8 8

/-- `v[7:0]`. -/
def loByte (v : Word) : Byte := v.extractLsb' 0 8

/-- The pair `{hi, lo}`, "big register first = high byte" (10_state.md R11). -/
def pack (hi lo : Byte) : Word := hi ++ lo

/-- `sext_16(b)`: two's-complement sign extension (00_scope.md section 5.1). -/
def sext16 (b : Byte) : Word := b.signExtend 16

/-- `zext_16(b)`: `b` as 16 bits. -/
def zext16 (b : Byte) : Word := b.setWidth 16

/-- The byte with one bit set, `1 << i` at 8 bits (45_rotate_bit.md R262, R264; 60_exceptions.md R350). -/
def oneBit (i : Nat) : Byte := 1#8 <<< i

end Sys2Proof.Machine
end

