-- ==== Sys2Proof/Config.lean ====
section
/-! DEFINITION. The implementation parameters of the hardware, each at the value rule R4 of spec 00_scope.md gives it. The spec leaves no value free (70_reset_and_hazards.md R395), so there is no opaque constant here. -/

namespace Sys2Proof.Config

/-- `PREFIX`, the extension prefix byte (R4, R90). -/
def prefixCode : Byte := 0xCB

/-- `IF_ADDR`, the interrupt request register's address (R4, R25). -/
def ifAddr : Word := 0xFF0F

/-- `IE_ADDR`, the interrupt enable register's address (R4, R24). -/
def ieAddr : Word := 0xFFFF

/-- First intercepted LCD register address (R51). -/
def lcdFirst : Word := 0xFF40

/-- Last intercepted LCD register address (R51). -/
def lcdLast : Word := 0xFF4B

/-- The bits of IE and IF that stand for the five sources (R349). -/
def irqMask : Byte := 0x1F

/-- `RESET_PC` (R4, R40). -/
def resetPc : Word := 0x0000

/-- `mem_init`: what a byte that neither a store nor the image load has written reads as (R40, R53). -/
def memInit : Byte := 0x00

/-- What a screen entry that no rendering has written holds: White (R40). -/
def screenInit : Shade := 0

/-- Number of addresses of the one address space (R26). -/
def memSize : Nat := 65536

/-- Length of the SearchingOAM period in system clock units (R320). -/
def oamCycles : Nat := 80

/-- Length of the Transferring period (R320). -/
def transferCycles : Nat := 172

/-- Length of the HBlank period (R320). -/
def hblankCycles : Nat := 204

/-- Length of one VBlank line (R320). -/
def vblankCycles : Nat := 456

/-- The scanline whose start is the VBlank transition (R322). -/
def vblankLine : Nat := 144

/-- The last scanline of a frame (R323). -/
def lastLine : Nat := 153

/-- Visible pixels of one scanline (R325). -/
def visibleWidth : Nat := 160

/-- Columns of the screen buffer; the linear index of `screen[row][col]` is `256 * row + col` (R326). -/
def screenWidth : Nat := 256

/-- Start of the tile data (R300). -/
def tileBase : Nat := 0x8000

/-- `NTILES`, the number of tiles the cache holds (R4, R301). -/
def tileCount : Nat := 384

/-- The two background map bases (R305). -/
def mapBase0 : Nat := 0x9800

/-- The second background map base (R305). -/
def mapBase1 : Nat := 0x9C00

/-- The cost of a halted step (R341). -/
def haltedCycles : Nat := 4

end Sys2Proof.Config
end

