-- ==== Sys2Proof/Syntax.lean ====
section
/-! DEFINITION. The instruction set as syntax: the operand names of spec 30_encoding.md section 2 and one constructor of `Instr` for each of the 115 rows of spec/opcode_table.json, in the table's order. -/

namespace Sys2Proof

/-- The seven registers an 8-bit register code names; code 6 is the memory byte at HL and never a register (R94). -/
inductive R8 where
  | b | c | d | e | h | l | a
deriving DecidableEq, Repr

/-- The pairs of field rr (R99): LD rr,nn, INC rr, DEC rr, ADD HL,rr. -/
inductive Pair where
  | bc | de | hl | sp
deriving DecidableEq, Repr

/-- The pairs of field qq (R99): PUSH and POP. -/
inductive StackPair where
  | bc | de | hl | af
deriving DecidableEq, Repr

/-- The four conditions of field cc (R95). -/
inductive Cond where
  | nz | z | nc | c
deriving DecidableEq, Repr

/-- What bits 7..3 of an extended-table opcode select (R102): one of the eight shift functions, or a bit operation with its bit index. -/
inductive ExtOp where
  | rlc | rrc | rl | rr | sla | sra | swap | srl
  | testBit (b : BitVec 3)
  | resetBit (b : BitVec 3)
  | setBit (b : BitVec 3)
deriving DecidableEq, Repr

/-- One constructor per row of the opcode table.  `n` is an unsigned immediate byte (R96), `e` the raw displacement byte,
read as two's complement where it is used (R97), `nn` a 16-bit immediate (R98), a `BitVec 3` operand a bit index or a restart target index (R100). -/
inductive Instr where
  /-- `NOP` (46_system.md R270). -/
  | nop
  /-- `LD rr,nn` (41_load16_stack.md R150). -/
  | ldRrNn (p : Pair) (nn : Word)
  /-- `LD (BC),A` (40_load8.md R127). -/
  | ldBcA
  /-- `LD (DE),A` (40_load8.md R128). -/
  | ldDeA
  /-- `LD (HL+),A` (40_load8.md R138). -/
  | ldHlIncA
  /-- `LD (HL-),A` (40_load8.md R136). -/
  | ldHlDecA
  /-- `INC rr` (43_alu16.md R211). -/
  | incRr (p : Pair)
  /-- `INC r` (42_alu8.md R190). -/
  | incR (r : R8)
  /-- `INC (HL)` (42_alu8.md R191). -/
  | incHl
  /-- `DEC r` (42_alu8.md R192). -/
  | decR (r : R8)
  /-- `DEC (HL)` (42_alu8.md R193). -/
  | decHl
  /-- `LD r,n` (40_load8.md R121). -/
  | ldRN (r : R8) (n : Byte)
  /-- `LD (HL),n` (40_load8.md R124). -/
  | ldHlN (n : Byte)
  /-- `RLCA` (45_rotate_bit.md R240). -/
  | rlca
  /-- `LD (nn),SP` (41_load16_stack.md R151). -/
  | ldNnSp (nn : Word)
  /-- `ADD HL,rr` (43_alu16.md R210). -/
  | addHlRr (p : Pair)
  /-- `LD A,(BC)` (40_load8.md R125). -/
  | ldABc
  /-- `LD A,(DE)` (40_load8.md R126). -/
  | ldADe
  /-- `LD A,(HL+)` (40_load8.md R137). -/
  | ldAHlInc
  /-- `LD A,(HL-)` (40_load8.md R135). -/
  | ldAHlDec
  /-- `DEC rr` (43_alu16.md R212). -/
  | decRr (p : Pair)
  /-- `RRCA` (45_rotate_bit.md R241). -/
  | rrca
  /-- `STOP` (46_system.md R272). -/
  | stop
  /-- `RLA` (45_rotate_bit.md R242). -/
  | rla
  /-- `JR e` (44_control.md R223). -/
  | jrE (e : Byte)
  /-- `RRA` (45_rotate_bit.md R243). -/
  | rra
  /-- `JR cc,e` (44_control.md R224). -/
  | jrCcE (cc : Cond) (e : Byte)
  /-- `DAA` (42_alu8.md R194). -/
  | daa
  /-- `CPL` (42_alu8.md R195). -/
  | cpl
  /-- `SCF` (42_alu8.md R196). -/
  | scf
  /-- `CCF` (42_alu8.md R197). -/
  | ccf
  /-- `LD r,r'` (40_load8.md R120). -/
  | ldRR (dst : R8) (src : R8)
  /-- `LD r,(HL)` (40_load8.md R122). -/
  | ldRHl (r : R8)
  /-- `LD (HL),r` (40_load8.md R123). -/
  | ldHlR (r : R8)
  /-- `HALT` (46_system.md R271). -/
  | halt
  /-- `ADD A,r` (42_alu8.md R166). -/
  | addAR (r : R8)
  /-- `ADD A,(HL)` (42_alu8.md R167). -/
  | addAHl
  /-- `ADD A,n` (42_alu8.md R168). -/
  | addAN (n : Byte)
  /-- `ADC A,r` (42_alu8.md R169). -/
  | adcAR (r : R8)
  /-- `ADC A,(HL)` (42_alu8.md R170). -/
  | adcAHl
  /-- `ADC A,n` (42_alu8.md R171). -/
  | adcAN (n : Byte)
  /-- `SUB r` (42_alu8.md R172). -/
  | subR (r : R8)
  /-- `SUB (HL)` (42_alu8.md R173). -/
  | subHl
  /-- `SUB n` (42_alu8.md R174). -/
  | subN (n : Byte)
  /-- `SBC A,r` (42_alu8.md R175). -/
  | sbcAR (r : R8)
  /-- `SBC A,(HL)` (42_alu8.md R176). -/
  | sbcAHl
  /-- `SBC A,n` (42_alu8.md R177). -/
  | sbcAN (n : Byte)
  /-- `AND r` (42_alu8.md R178). -/
  | andR (r : R8)
  /-- `AND (HL)` (42_alu8.md R179). -/
  | andHl
  /-- `AND n` (42_alu8.md R180). -/
  | andN (n : Byte)
  /-- `XOR r` (42_alu8.md R181). -/
  | xorR (r : R8)
  /-- `XOR (HL)` (42_alu8.md R182). -/
  | xorHl
  /-- `XOR n` (42_alu8.md R183). -/
  | xorN (n : Byte)
  /-- `OR r` (42_alu8.md R184). -/
  | orR (r : R8)
  /-- `OR (HL)` (42_alu8.md R185). -/
  | orHl
  /-- `OR n` (42_alu8.md R186). -/
  | orN (n : Byte)
  /-- `CP r` (42_alu8.md R187). -/
  | cpR (r : R8)
  /-- `CP (HL)` (42_alu8.md R188). -/
  | cpHl
  /-- `CP n` (42_alu8.md R189). -/
  | cpN (n : Byte)
  /-- `RET cc` (44_control.md R228). -/
  | retCc (cc : Cond)
  /-- `POP qq` (41_load16_stack.md R155). -/
  | popQq (q : StackPair)
  /-- `JP cc,nn` (44_control.md R221). -/
  | jpCcNn (cc : Cond) (nn : Word)
  /-- `JP nn` (44_control.md R220). -/
  | jpNn (nn : Word)
  /-- `CALL cc,nn` (44_control.md R226). -/
  | callCcNn (cc : Cond) (nn : Word)
  /-- `PUSH qq` (41_load16_stack.md R154). -/
  | pushQq (q : StackPair)
  /-- `RST t` (44_control.md R230). -/
  | rstT (t : BitVec 3)
  /-- `RET` (44_control.md R227). -/
  | ret
  /-- The row of the prefix byte 0xCB itself (30_encoding.md R90): not an instruction of its own; `decode` never answers it. -/
  | prefixByte
  /-- `CALL nn` (44_control.md R225). -/
  | callNn (nn : Word)
  /-- `RETI` (44_control.md R229). -/
  | reti
  /-- `LDH (n),A` (40_load8.md R134). -/
  | ldhNA (n : Byte)
  /-- `LDH (C),A` (40_load8.md R132). -/
  | ldhCA
  /-- `ADD SP,e` (43_alu16.md R213). -/
  | addSpE (e : Byte)
  /-- `JP HL` (44_control.md R222). -/
  | jpHl
  /-- `LD (nn),A` (40_load8.md R130). -/
  | ldNnA (nn : Word)
  /-- `LDH A,(n)` (40_load8.md R133). -/
  | ldhAN (n : Byte)
  /-- `LDH A,(C)` (40_load8.md R131). -/
  | ldhAC
  /-- `DI` (46_system.md R273). -/
  | di
  /-- `LD HL,SP+e` (41_load16_stack.md R153). -/
  | ldHlSpE (e : Byte)
  /-- `LD SP,HL` (41_load16_stack.md R152). -/
  | ldSpHl
  /-- `LD A,(nn)` (40_load8.md R129). -/
  | ldANn (nn : Word)
  /-- `EI` (46_system.md R274). -/
  | ei
  /-- The unassigned base-table byte 0xD3 (30_encoding.md R103, 46_system.md R275). -/
  | illegalD3
  /-- The unassigned base-table byte 0xDB (30_encoding.md R103, 46_system.md R275). -/
  | illegalDB
  /-- The unassigned base-table byte 0xDD (30_encoding.md R103, 46_system.md R275). -/
  | illegalDD
  /-- The unassigned base-table byte 0xE3 (30_encoding.md R103, 46_system.md R275). -/
  | illegalE3
  /-- The unassigned base-table byte 0xE4 (30_encoding.md R103, 46_system.md R275). -/
  | illegalE4
  /-- The unassigned base-table byte 0xEB (30_encoding.md R103, 46_system.md R275). -/
  | illegalEB
  /-- The unassigned base-table byte 0xEC (30_encoding.md R103, 46_system.md R275). -/
  | illegalEC
  /-- The unassigned base-table byte 0xED (30_encoding.md R103, 46_system.md R275). -/
  | illegalED
  /-- The unassigned base-table byte 0xF4 (30_encoding.md R103, 46_system.md R275). -/
  | illegalF4
  /-- The unassigned base-table byte 0xFC (30_encoding.md R103, 46_system.md R275). -/
  | illegalFC
  /-- The unassigned base-table byte 0xFD (30_encoding.md R103, 46_system.md R275). -/
  | illegalFD
  /-- `RLC r` (45_rotate_bit.md R244). -/
  | rlcR (r : R8)
  /-- `RLC (HL)` (45_rotate_bit.md R245). -/
  | rlcHl
  /-- `RRC r` (45_rotate_bit.md R246). -/
  | rrcR (r : R8)
  /-- `RRC (HL)` (45_rotate_bit.md R247). -/
  | rrcHl
  /-- `RL r` (45_rotate_bit.md R248). -/
  | rlR (r : R8)
  /-- `RL (HL)` (45_rotate_bit.md R249). -/
  | rlHl
  /-- `RR r` (45_rotate_bit.md R250). -/
  | rrR (r : R8)
  /-- `RR (HL)` (45_rotate_bit.md R251). -/
  | rrHl
  /-- `SLA r` (45_rotate_bit.md R252). -/
  | slaR (r : R8)
  /-- `SLA (HL)` (45_rotate_bit.md R253). -/
  | slaHl
  /-- `SRA r` (45_rotate_bit.md R254). -/
  | sraR (r : R8)
  /-- `SRA (HL)` (45_rotate_bit.md R255). -/
  | sraHl
  /-- `SWAP r` (45_rotate_bit.md R256). -/
  | swapR (r : R8)
  /-- `SWAP (HL)` (45_rotate_bit.md R257). -/
  | swapHl
  /-- `SRL r` (45_rotate_bit.md R258). -/
  | srlR (r : R8)
  /-- `SRL (HL)` (45_rotate_bit.md R259). -/
  | srlHl
  /-- `BIT b,r` (45_rotate_bit.md R260). -/
  | bitR (b : BitVec 3) (r : R8)
  /-- `BIT b,(HL)` (45_rotate_bit.md R261). -/
  | bitHl (b : BitVec 3)
  /-- `RES b,r` (45_rotate_bit.md R262). -/
  | resR (b : BitVec 3) (r : R8)
  /-- `RES b,(HL)` (45_rotate_bit.md R263). -/
  | resHl (b : BitVec 3)
  /-- `SET b,r` (45_rotate_bit.md R264). -/
  | setR (b : BitVec 3) (r : R8)
  /-- `SET b,(HL)` (45_rotate_bit.md R265). -/
  | setHl (b : BitVec 3)
deriving DecidableEq, Repr

end Sys2Proof
end

