-- ==== Sys2Proof/Machine/State.lean ====
section
/-! DEFINITION. The state of the machine, as plain data: every component of the table of rule R40 (spec 10_state.md), and nothing else. -/

namespace Sys2Proof.Machine

/-- The seven general registers (R10). -/
structure Regs where
  a : Byte
  b : Byte
  c : Byte
  d : Byte
  e : Byte
  h : Byte
  l : Byte
deriving DecidableEq, Repr

/-- The four flags.  Bits 3..0 of F "have no storage" (R12), so F is exactly these. -/
structure Flags where
  z : Bool
  n : Bool
  h : Bool
  c : Bool
deriving DecidableEq, Repr

/-- The table a fatal condition names (R23, R342). -/
inductive OpTable where
  | base | extended
deriving DecidableEq, Repr

/-- The two fatal conditions, the machine's only synchronous exceptions (R342). -/
inductive Fatal where
  /-- R343: the selecting byte has no entry in its table. -/
  | decodeFailure (byte : Byte) (table : OpTable)
  /-- R344: the byte is recognised and has no execution rule. -/
  | unimplemented (opcode : Byte) (table : OpTable)
deriving DecidableEq, Repr

/-- The four modes of the LCD controller (R30, R321). -/
inductive LcdMode where
  | searchingOam | transferring | hblank | vblank
deriving DecidableEq, Repr

/-- The background palette: `p0` is the shade of pixel value 0, and so on (R30, R310). -/
structure Palette where
  p0 : Shade
  p1 : Shade
  p2 : Shade
  p3 : Shade
deriving DecidableEq, Repr

/-- The LCD controller's state and the storage of its registers (R30). -/
structure Lcd where
  control  : Byte
  mode     : LcdMode
  counter  : Nat
  scanline : Byte
  scx      : Byte
  scy      : Byte
  bgp      : Palette
  statSel  : BitVec 4
  lyc      : Byte
  dma      : Byte
  obp0     : Byte
  obp1     : Byte
  wy       : Byte
  wx       : Byte
deriving DecidableEq, Repr

/-- The five interrupt sources (R25, R347). -/
inductive IrqSource where
  | vblank | lcdStat | timer | serial | joypad
deriving DecidableEq, Repr

/-- The machine's state (R40).  `mem` is the flat byte array (R26) and `screen` the 256 x 256 buffer (R30, R326), each as
the list of the entries that differ from what an unlisted entry reads as, `Config.memInit` and `Config.screenInit`;
the key of `screen[row][col]` is `256 * row + col`. -/
structure State where
  regs       : Regs
  flags      : Flags
  pc         : Word
  sp         : Word
  ime        : Bool
  imePending : Bool
  halted     : Bool
  fatal      : Option Fatal
  ie         : Byte
  ifReg      : Byte
  mem        : List Host.Cell
  lcd        : Lcd
  screen     : List (Nat × Shade)
deriving DecidableEq, Repr

/-- Why the machine can stop. -/
inductive Fault where
  /-- Raised by `step` alone, on a state whose `fatal` is set: "While `fatal != none` the precondition of rule R340 fails:
  the machine has no further step, and only reset clears it" (R345).  Safe: the hardware makes no step there either. -/
  | fatalLatched (f : Fatal)
deriving DecidableEq, Repr

/-- Why the model can decline. -/
inductive Refusal where
  /-- Raised by an arm of `exec` whose instruction has no meaning yet; no arm of this model raises it.  Safe. -/
  | notModelled (mnemonic : String)
deriving DecidableEq, Repr

/-- What a meaning and a step answer. -/
abbrev Result := Host.Outcome State Fault Refusal

/-- The LCD controller after reset (R40): "Initial state: `SearchingOAM`, scanline 0, cycle counter 0"; the rest is the spec's D9. -/
def Lcd.reset : Lcd where
  control  := 0x00
  mode     := .searchingOam
  counter  := 0
  scanline := 0
  scx      := 0x00
  scy      := 0x00
  bgp      := ⟨0, 0, 0, 0⟩
  statSel  := 0
  lyc      := 0x00
  dma      := 0x00
  obp0     := 0x00
  obp1     := 0x00
  wy       := 0x00
  wx       := 0x00

/-- The machine right after reset and before an image is loaded (R40, R380). -/
def State.reset : State where
  regs       := ⟨0, 0, 0, 0, 0, 0, 0⟩
  flags      := ⟨false, false, false, false⟩
  pc         := Config.resetPc
  sp         := 0x0000
  ime        := false
  imePending := false
  halted     := false
  fatal      := none
  ie         := 0x00
  ifReg      := 0x00
  mem        := []
  lcd        := Lcd.reset
  screen     := []

end Sys2Proof.Machine
end

