-- ==== Sys2Proof/Machine/LcdRegs.lean ====
section
/-! DEFINITION. The memory-mapped LCD registers 0xFF40..0xFF4B: what a read returns and what a write does (spec 50_lcd_ppu.md R310, R330 to R335). -/

namespace Sys2Proof.Machine

/-- `from_byte`: pixel value i takes bits 2i+1..2i (R310). -/
def Palette.fromByte (b : Byte) : Palette :=
  ⟨b.extractLsb' 0 2, b.extractLsb' 2 2, b.extractLsb' 4 2, b.extractLsb' 6 2⟩

/-- `to_byte`: `{bgp[3], bgp[2], bgp[1], bgp[0]}` (R310). -/
def Palette.toByte (p : Palette) : Byte := p.p3 ++ p.p2 ++ p.p1 ++ p.p0

/-- The shade of a pixel value (R310). -/
def Palette.shade (p : Palette) (v : Shade) : Shade :=
  if v = 0 then p.p0 else if v = 1 then p.p1 else if v = 2 then p.p2 else p.p3

/-- The mode code in STAT bits 1..0 (R331). -/
def LcdMode.code : LcdMode → BitVec 2
  | .hblank => 0
  | .vblank => 1
  | .searchingOam => 2
  | .transferring => 3

/-- What a read of STAT composes: bit 7 reads 1, the stored select bits, the coincidence bit, the mode code (R331). -/
def Lcd.stat (l : Lcd) : Byte :=
  1#1 ++ l.statSel ++ BitVec.ofBool (l.scanline == l.lyc) ++ l.mode.code

/-- `lcd_reg_read(a)` for an address in 0xFF40..0xFF4B (R330). -/
def Lcd.read (l : Lcd) (a : Word) : Byte :=
  if a = 0xFF40 then l.control
  else if a = 0xFF41 then l.stat
  else if a = 0xFF42 then l.scy
  else if a = 0xFF43 then l.scx
  else if a = 0xFF44 then l.scanline
  else if a = 0xFF45 then l.lyc
  else if a = 0xFF46 then l.dma
  else if a = 0xFF47 then l.bgp.toByte
  else if a = 0xFF48 then l.obp0
  else if a = 0xFF49 then l.obp1
  else if a = 0xFF4A then l.wy
  else l.wx

/-- `lcd_reg_write(a, v)` for an address in 0xFF40..0xFF4B (R330): STAT keeps bits 6..3 alone (R331), LY ignores the write (R332),
DMA starts no transfer (R334). -/
def Lcd.write (l : Lcd) (a : Word) (v : Byte) : Lcd :=
  if a = 0xFF40 then { l with control := v }
  else if a = 0xFF41 then { l with statSel := v.extractLsb' 3 4 }
  else if a = 0xFF42 then { l with scy := v }
  else if a = 0xFF43 then { l with scx := v }
  else if a = 0xFF44 then l
  else if a = 0xFF45 then { l with lyc := v }
  else if a = 0xFF46 then { l with dma := v }
  else if a = 0xFF47 then { l with bgp := Palette.fromByte v }
  else if a = 0xFF48 then { l with obp0 := v }
  else if a = 0xFF49 then { l with obp1 := v }
  else if a = 0xFF4A then { l with wy := v }
  else { l with wx := v }

end Sys2Proof.Machine
end

