-- ==== Sys2Proof/Machine/Store.lean ====
section
/-! DEFINITION. Sparse storage in one canonical form: a list of (key, value) pairs, keys strictly rising, no value equal to what an unlisted key reads as.  Memory (10_state.md R26) and the screen buffer (R30) are both held so. -/

namespace Sys2Proof.Machine

/-- The value at a key; `d` where the key is not listed. -/
def Store.get {w : Nat} (d : BitVec w) : List (Nat × BitVec w) → Nat → BitVec w
  | [], _ => d
  | (k, v) :: m, a => if k = a then v else Store.get d m a

/-- The list without the entries of one key. -/
def Store.erase {w : Nat} : List (Nat × BitVec w) → Nat → List (Nat × BitVec w)
  | [], _ => []
  | (k, v) :: m, a => if k = a then Store.erase m a else (k, v) :: Store.erase m a

/-- A new entry before the first larger key. -/
def Store.insert {w : Nat} : List (Nat × BitVec w) → Nat → BitVec w → List (Nat × BitVec w)
  | [], a, v => [(a, v)]
  | (k, u) :: m, a, v => if a < k then (a, v) :: (k, u) :: m else (k, u) :: Store.insert m a v

/-- A write: it lists the value, and lists nothing where the value is what an unlisted key reads as. -/
def Store.put {w : Nat} (d : BitVec w) (m : List (Nat × BitVec w)) (a : Nat) (v : BitVec w) : List (Nat × BitVec w) :=
  if v = d then Store.erase m a else Store.insert (Store.erase m a) a v

/-- The canonical form. -/
def Store.wf {w : Nat} (d : BitVec w) : List (Nat × BitVec w) → Bool
  | [] => true
  | (k, v) :: m => v != d && m.all (fun c => k < c.1) && Store.wf d m

/-- The canonical form of memory: that of a store, every key an address (R26). -/
def Memory.wf (m : List Host.Cell) : Bool :=
  Store.wf Config.memInit m && m.all (fun c => c.1 < Config.memSize)

/-- The canonical form of the screen buffer: that of a store, every key in the driven region, rows 0..143 and columns 0..159,
the only part the block writes (50_lcd_ppu.md R325). -/
def Screen.wf (m : List (Nat × Shade)) : Bool :=
  Store.wf Config.screenInit m &&
    m.all (fun c => c.1 / Config.screenWidth < Config.vblankLine && c.1 % Config.screenWidth < Config.visibleWidth)

/-- `mem[a]`, the flat array itself, not through the router. -/
def State.memAt (s : State) (a : Nat) : Byte := Store.get Config.memInit s.mem a

/-- `mem[a] <- v`, the flat array itself. -/
def State.setMemAt (s : State) (a : Nat) (v : Byte) : State := { s with mem := Store.put Config.memInit s.mem a v }

/-- `screen[row][col]` (R326). -/
def State.screenAt (s : State) (row col : Nat) : Shade := Store.get Config.screenInit s.screen (Config.screenWidth * row + col)

end Sys2Proof.Machine
end

