-- ==== Sys2Proof/Machine/Ops.lean ====
section
/-! DEFINITION. The shared operations: the bus router, the stack, raising a fatal condition, and taking an interrupt with the return from it (spec 20_memory.md, 10_state.md R18 and R19, 60_exceptions.md R345 and R350). -/

namespace Sys2Proof.Machine

/-- The addresses 0xFF40..0xFF4B that the router hands to the LCD controller (R51). -/
def isLcdAddr (a : Word) : Bool := decide (Config.lcdFirst ≤ a) && decide (a ≤ Config.lcdLast)

/-- `MemRead(a, 1)`: the read router (R51).  A read has no side effect at any address (R63). -/
def State.readBus (s : State) (a : Word) : Byte :=
  if a = Config.ifAddr then s.ifReg
  else if a = Config.ieAddr then s.ie
  else if isLcdAddr a then s.lcd.read a
  else s.memAt a.toNat

/-- `MemWrite(a, 1, v)`: the write router (R52). -/
def State.writeBus (s : State) (a : Word) (v : Byte) : State :=
  if a = Config.ifAddr then { s with ifReg := v }
  else if a = Config.ieAddr then { s with ie := v }
  else if isLcdAddr a then { s with lcd := s.lcd.write a v }
  else s.setMemAt a.toNat v

/-- `MemRead(a, 2)`: low byte at `a`, high byte at `a + 1` (R60). -/
def State.readBus16 (s : State) (a : Word) : Word := pack (s.readBus (a + 1)) (s.readBus a)

/-- `MemWrite(a, 2, v)`: the low byte to `a` first, then the high byte to `a + 1` (R60). -/
def State.writeBus16 (s : State) (a : Word) (v : Word) : State :=
  (s.writeBus a (loByte v)).writeBus (a + 1) (hiByte v)

/-- `push16(v)`: high byte at SP-1 first, low byte at SP-2, then SP decreases by 2 (R18). -/
def State.push16 (s : State) (v : Word) : State :=
  { (s.writeBus (s.sp - 1) (hiByte v)).writeBus (s.sp - 2) (loByte v) with sp := s.sp - 2 }

/-- The value `pop16()` returns: low byte at SP, high byte at SP+1 (R19). -/
def State.popValue (s : State) : Word := s.readBus16 s.sp

/-- What `pop16()` does to SP (R19). -/
def State.popSp (s : State) : State := { s with sp := s.sp + 2 }

/-- `pc <- PCnext` of an instruction of `len` bytes (R16). -/
def State.advance (len : Word) (s : State) : State := { s with pc := s.pc + len }

/-- `pc <- target`. -/
def State.jump (target : Word) (s : State) : State := { s with pc := target }

/-- Raising a fatal condition: the step "changes no architectural state except `fatal`" (R345). -/
def State.raiseFatal (f : Fatal) (s : State) : State := { s with fatal := some f }

/-- The bit of IE and IF that stands for a source (R25, R347). -/
def IrqSource.bit : IrqSource → Nat
  | .vblank => 0
  | .lcdStat => 1
  | .timer => 2
  | .serial => 3
  | .joypad => 4

/-- `VECTOR[k]` (R4, R25, R350). -/
def IrqSource.vector : IrqSource → Word
  | .vblank => 0x0040
  | .lcdStat => 0x0048
  | .timer => 0x0050
  | .serial => 0x0058
  | .joypad => 0x0060

/-- Latching a request: `IF <- IF | (1 << k)` (R322, R352). -/
def State.requestIrq (k : IrqSource) (s : State) : State := { s with ifReg := s.ifReg ||| oneBit k.bit }

/-- `dispatch(k)`, the one operation that takes an interrupt (R350): clear the request, clear IME and a pending EI, push PC, go to
the service address.  The request is cleared before the push, which matters when the stack lies on IF. -/
def State.dispatch (k : IrqSource) (s : State) : State :=
  ({ s with ifReg := s.ifReg &&& ~~~(oneBit k.bit), ime := false, imePending := false }.push16 s.pc).jump k.vector

/-- The return from an interrupt: pop PC and set IME at once (R229, R353). -/
def State.returnFromIrq (s : State) : State := { s.popSp.jump s.popValue with ime := true }

end Sys2Proof.Machine
end

