-- ==== Sys2Proof/Machine/Operands.lean ====
section
/-! DEFINITION. The operand forms: registers, pairs, F and AF, conditions, the byte at HL and the other effective addresses (spec 10_state.md R10 to R14, 30_encoding.md R94 to R100). -/

namespace Sys2Proof.Machine

/-- `x[i]` (R10, R94). -/
def Regs.get (g : Regs) : R8 → Byte
  | .b => g.b
  | .c => g.c
  | .d => g.d
  | .e => g.e
  | .h => g.h
  | .l => g.l
  | .a => g.a

/-- `x[i] <- v` (R10, R94). -/
def Regs.set (g : Regs) (r : R8) (v : Byte) : Regs :=
  match r with
  | .b => { g with b := v }
  | .c => { g with c := v }
  | .d => { g with d := v }
  | .e => { g with e := v }
  | .h => { g with h := v }
  | .l => { g with l := v }
  | .a => { g with a := v }

/-- A register of the machine. -/
def State.reg (s : State) (r : R8) : Byte := s.regs.get r

/-- A register write. -/
def State.setReg (s : State) (r : R8) (v : Byte) : State := { s with regs := s.regs.set r v }

/-- `BC` (R11). -/
def State.bc (s : State) : Word := pack s.regs.b s.regs.c

/-- `DE` (R11). -/
def State.de (s : State) : Word := pack s.regs.d s.regs.e

/-- `HL` (R11). -/
def State.hl (s : State) : Word := pack s.regs.h s.regs.l

/-- `BC <- v` (R11). -/
def State.setBc (s : State) (v : Word) : State := { s with regs := { s.regs with b := hiByte v, c := loByte v } }

/-- `DE <- v` (R11). -/
def State.setDe (s : State) (v : Word) : State := { s with regs := { s.regs with d := hiByte v, e := loByte v } }

/-- `HL <- v` (R11). -/
def State.setHl (s : State) (v : Word) : State := { s with regs := { s.regs with h := hiByte v, l := loByte v } }

/-- SP write (R17). -/
def State.setSp (s : State) (v : Word) : State := { s with sp := v }

/-- All four flags written. -/
def State.setFlags (s : State) (f : Flags) : State := { s with flags := f }

/-- The byte F: `{Z, N, H, C, 0, 0, 0, 0}` (R12, R13). -/
def Flags.toByte (f : Flags) : Byte :=
  BitVec.ofBool f.z ++ BitVec.ofBool f.n ++ BitVec.ofBool f.h ++ BitVec.ofBool f.c ++ 0#4

/-- What a write of the byte F keeps of it: bits 7..4 (R14). -/
def Flags.fromByte (b : Byte) : Flags :=
  ⟨b.getLsbD 7, b.getLsbD 6, b.getLsbD 5, b.getLsbD 4⟩

/-- `AF` (R11, R13). -/
def State.af (s : State) : Word := pack s.regs.a s.flags.toByte

/-- `AF <- v` (R14). -/
def State.setAf (s : State) (v : Word) : State := (s.setReg .a (hiByte v)).setFlags (Flags.fromByte (loByte v))

/-- `pair(rr)` (R99). -/
def State.pair (s : State) : Pair → Word
  | .bc => s.bc
  | .de => s.de
  | .hl => s.hl
  | .sp => s.sp

/-- `pair(rr) <- v` (R99). -/
def State.setPair (s : State) (p : Pair) (v : Word) : State :=
  match p with
  | .bc => s.setBc v
  | .de => s.setDe v
  | .hl => s.setHl v
  | .sp => s.setSp v

/-- `pair(qq)` (R99). -/
def State.stackPair (s : State) : StackPair → Word
  | .bc => s.bc
  | .de => s.de
  | .hl => s.hl
  | .af => s.af

/-- `pair(qq) <- v` (R99). -/
def State.setStackPair (s : State) (q : StackPair) (v : Word) : State :=
  match q with
  | .bc => s.setBc v
  | .de => s.setDe v
  | .hl => s.setHl v
  | .af => s.setAf v

/-- `cond(cc)`, on the flags as they are before the instruction (R95). -/
def Flags.cond (f : Flags) : Cond → Bool
  | .nz => !f.z
  | .z => f.z
  | .nc => !f.c
  | .c => f.c

/-- `MemRead(HL, 1)`, the operand of code 6 (R94). -/
def State.atHl (s : State) : Byte := s.readBus s.hl

/-- `MemWrite(HL, 1, v)` (R94). -/
def State.setAtHl (s : State) (v : Byte) : State := s.writeBus s.hl v

/-- The effective address `0xFF00 + zext_16(b)` of the LDH forms (R131 to R134). -/
def highPage (b : Byte) : Word := 0xFF00 + zext16 b

/-- The target of JR: `PCnext + sext_16(e)` with `PCnext = a0 + 2` (R97, R223). -/
def State.jrTarget (s : State) (e : Byte) : Word := s.pc + 2 + sext16 e

/-- The target of RST: `ttt * 8` (R100). -/
def rstTarget (t : BitVec 3) : Word := t.setWidth 16 * 8

end Sys2Proof.Machine
end

