-- ==== Sys2Proof/Machine/Flags.lean ====
section
/-! DEFINITION. Every result with its flags: the arithmetic helpers, logic, INC and DEC, DAA, 16-bit additions, the eight shift functions and BIT (spec 42_alu8.md, 43_alu16.md, 45_rotate_bit.md). -/

namespace Sys2Proof.Machine

/-- A result byte with the four flags. -/
abbrev ByteFlags := Byte × Flags

/-- `v[3:0]` as a number. -/
def nib (v : Byte) : Nat := v.toNat % 16

/-- `add8(a, v, cin)` (R165). -/
def add8 (a v : Byte) (cin : Bool) : ByteFlags :=
  let s := a.toNat + v.toNat + cin.toNat
  let res := BitVec.ofNat 8 s
  (res, { z := res == 0, n := false, h := decide (nib a + nib v + cin.toNat > 0xF), c := decide (s > 0xFF) })

/-- `sub8(a, v, cin)` (R165). -/
def sub8 (a v : Byte) (cin : Bool) : ByteFlags :=
  let d : Int := (a.toNat : Int) - (v.toNat : Int) - (cin.toNat : Int)
  let res := BitVec.ofInt 8 d
  (res, { z := res == 0, n := true, h := decide (nib a < nib v + cin.toNat), c := decide (a.toNat < v.toNat + cin.toNat) })

/-- AND (R178). -/
def and8 (a v : Byte) : ByteFlags := let res := a &&& v; (res, { z := res == 0, n := false, h := true, c := false })

/-- XOR (R181). -/
def xor8 (a v : Byte) : ByteFlags := let res := a ^^^ v; (res, { z := res == 0, n := false, h := false, c := false })

/-- OR (R184). -/
def or8 (a v : Byte) : ByteFlags := let res := a ||| v; (res, { z := res == 0, n := false, h := false, c := false })

/-- 8-bit INC; C is unchanged (R190). -/
def inc8 (v : Byte) (f : Flags) : ByteFlags :=
  let res := v + 1; (res, { f with z := res == 0, n := false, h := nib v == 0xF })

/-- 8-bit DEC; C is unchanged (R192). -/
def dec8 (v : Byte) (f : Flags) : ByteFlags :=
  let res := v - 1; (res, { f with z := res == 0, n := true, h := nib v == 0x0 })

/-- DAA (R194): the upper test uses the original A, and the low nibble is not changed by the 0x60 step. -/
def daa8 (a : Byte) (f : Flags) : ByteFlags :=
  if f.n then
    let a1 := if f.c then a - 0x60 else a
    let a2 := if f.h then a1 - 0x06 else a1
    (a2, { f with z := a2 == 0, h := false })
  else
    let upper := f.c || decide (a.toNat > 0x99)
    let a1 := if upper then a + 0x60 else a
    let a2 := if f.h || decide (nib a1 > 0x9) then a1 + 0x06 else a1
    (a2, { f with z := a2 == 0, h := false, c := upper })

/-- ADD HL,rr: sum with H from bit 11 and C from bit 15; Z is unchanged (R210). -/
def addHl16 (hl v : Word) (f : Flags) : Word × Flags :=
  let s := hl.toNat + v.toNat
  (BitVec.ofNat 16 s,
    { f with n := false, h := decide (hl.toNat % 4096 + v.toNat % 4096 > 0xFFF), c := decide (s > 0xFFFF) })

/-- SP plus a signed displacement; H and C are the carries of the unsigned addition of the low bytes (R153, R213). -/
def addSp16 (sp : Word) (e : Byte) : Word × Flags :=
  (sp + sext16 e,
    { z := false, n := false, h := decide (sp.toNat % 16 + nib e > 0xF), c := decide (sp.toNat % 256 + e.toNat > 0xFF) })

/-- Rotate left, bit 7 to bit 0 and to carry: the first of the eight shift functions, from a value and the carry flag to a
result and a new carry (R239). -/
def rlcFn (v : Byte) (_c : Bool) : Byte × Bool := (v.extractLsb' 0 7 ++ BitVec.ofBool (v.getLsbD 7), v.getLsbD 7)

/-- Rotate right (R239). -/
def rrcFn (v : Byte) (_c : Bool) : Byte × Bool := (BitVec.ofBool (v.getLsbD 0) ++ v.extractLsb' 1 7, v.getLsbD 0)

/-- Rotate left through carry (R239). -/
def rlFn (v : Byte) (c : Bool) : Byte × Bool := (v.extractLsb' 0 7 ++ BitVec.ofBool c, v.getLsbD 7)

/-- Rotate right through carry (R239). -/
def rrFn (v : Byte) (c : Bool) : Byte × Bool := (BitVec.ofBool c ++ v.extractLsb' 1 7, v.getLsbD 0)

/-- Shift left, 0 into bit 0 (R239). -/
def slaFn (v : Byte) (_c : Bool) : Byte × Bool := (v.extractLsb' 0 7 ++ 0#1, v.getLsbD 7)

/-- Shift right arithmetic, bit 7 kept (R239). -/
def sraFn (v : Byte) (_c : Bool) : Byte × Bool := (BitVec.ofBool (v.getLsbD 7) ++ v.extractLsb' 1 7, v.getLsbD 0)

/-- Exchange nibbles (R239). -/
def swapFn (v : Byte) (_c : Bool) : Byte × Bool := (v.extractLsb' 0 4 ++ v.extractLsb' 4 4, false)

/-- Shift right logical, 0 into bit 7 (R239). -/
def srlFn (v : Byte) (_c : Bool) : Byte × Bool := (0#1 ++ v.extractLsb' 1 7, v.getLsbD 0)

/-- The flags of an extended-table shift: Z from the result, N and H clear, C the bit shifted out (45_rotate_bit.md section 1). -/
def shiftFlags (p : Byte × Bool) : ByteFlags := (p.1, { z := p.1 == 0, n := false, h := false, c := p.2 })

/-- The flags of a base-table rotate of A: Z "is always cleared, whatever the result" (R240 to R243). -/
def rotateAFlags (p : Byte × Bool) : ByteFlags := (p.1, { z := false, n := false, h := false, c := p.2 })

/-- The flags of BIT: Z the complement of the tested bit, H set, C unchanged (R260). -/
def bitFlags (v : Byte) (b : BitVec 3) (f : Flags) : Flags := { f with z := !v.getLsbD b.toNat, n := false, h := true }

/-- `v & ~(1 << bbb)` (R262). -/
def resBit (v : Byte) (b : BitVec 3) : Byte := v &&& ~~~(oneBit b.toNat)

/-- `v | (1 << bbb)` (R264). -/
def setBit (v : Byte) (b : BitVec 3) : Byte := v ||| oneBit b.toNat

/-- A result in a register, with its flags. -/
def State.putReg (s : State) (r : R8) (p : ByteFlags) : State := (s.setReg r p.1).setFlags p.2

/-- A result in the byte at HL, with its flags: one write after one read of the same address (R62). -/
def State.putAtHl (s : State) (p : ByteFlags) : State := (s.setAtHl p.1).setFlags p.2

end Sys2Proof.Machine
end

