-- ==== Sys2Proof/Machine/Alu16.lean ====
section
/-! DEFINITION. 16-bit arithmetic (spec 43_alu16.md R210 to R213). -/

namespace Sys2Proof.Machine

/-- `ADD HL,rr` (R210): the operand is read before HL is written. -/
def execAddHlRr (p : Pair) (s : State) : Result :=
  .next (((s.setHl (addHl16 s.hl (s.pair p) s.flags).1).setFlags (addHl16 s.hl (s.pair p) s.flags).2).advance 1)

/-- `INC rr` (R211): no flag changes. -/
def execIncRr (p : Pair) (s : State) : Result :=
  .next ((s.setPair p (s.pair p + 1)).advance 1)

/-- `DEC rr` (R212): no flag changes. -/
def execDecRr (p : Pair) (s : State) : Result :=
  .next ((s.setPair p (s.pair p - 1)).advance 1)

/-- `ADD SP,e` (R213). -/
def execAddSpE (e : Byte) (s : State) : Result :=
  .next (((s.setSp (addSp16 s.sp e).1).setFlags (addSp16 s.sp e).2).advance 2)

end Sys2Proof.Machine
end

