-- ==== Sys2Proof/Machine/Alu8.lean ====
section
/-! DEFINITION. 8-bit arithmetic and logic (spec 42_alu8.md R166 to R197). -/

namespace Sys2Proof.Machine

/-- `ADD A,r` (R166). -/
def execAddAR (r : R8) (s : State) : Result :=
  .next ((s.putReg .a (add8 s.regs.a (s.reg r) false)).advance 1)

/-- `ADD A,(HL)` (R167). -/
def execAddAHl (s : State) : Result :=
  .next ((s.putReg .a (add8 s.regs.a s.atHl false)).advance 1)

/-- `ADD A,n` (R168). -/
def execAddAN (n : Byte) (s : State) : Result :=
  .next ((s.putReg .a (add8 s.regs.a n false)).advance 2)

/-- `ADC A,r` (R169). -/
def execAdcAR (r : R8) (s : State) : Result :=
  .next ((s.putReg .a (add8 s.regs.a (s.reg r) s.flags.c)).advance 1)

/-- `ADC A,(HL)` (R170). -/
def execAdcAHl (s : State) : Result :=
  .next ((s.putReg .a (add8 s.regs.a s.atHl s.flags.c)).advance 1)

/-- `ADC A,n` (R171). -/
def execAdcAN (n : Byte) (s : State) : Result :=
  .next ((s.putReg .a (add8 s.regs.a n s.flags.c)).advance 2)

/-- `SUB r` (R172). -/
def execSubR (r : R8) (s : State) : Result :=
  .next ((s.putReg .a (sub8 s.regs.a (s.reg r) false)).advance 1)

/-- `SUB (HL)` (R173). -/
def execSubHl (s : State) : Result :=
  .next ((s.putReg .a (sub8 s.regs.a s.atHl false)).advance 1)

/-- `SUB n` (R174). -/
def execSubN (n : Byte) (s : State) : Result :=
  .next ((s.putReg .a (sub8 s.regs.a n false)).advance 2)

/-- `SBC A,r` (R175). -/
def execSbcAR (r : R8) (s : State) : Result :=
  .next ((s.putReg .a (sub8 s.regs.a (s.reg r) s.flags.c)).advance 1)

/-- `SBC A,(HL)` (R176). -/
def execSbcAHl (s : State) : Result :=
  .next ((s.putReg .a (sub8 s.regs.a s.atHl s.flags.c)).advance 1)

/-- `SBC A,n` (R177). -/
def execSbcAN (n : Byte) (s : State) : Result :=
  .next ((s.putReg .a (sub8 s.regs.a n s.flags.c)).advance 2)

/-- `AND r` (R178). -/
def execAndR (r : R8) (s : State) : Result :=
  .next ((s.putReg .a (and8 s.regs.a (s.reg r))).advance 1)

/-- `AND (HL)` (R179). -/
def execAndHl (s : State) : Result :=
  .next ((s.putReg .a (and8 s.regs.a s.atHl)).advance 1)

/-- `AND n` (R180). -/
def execAndN (n : Byte) (s : State) : Result :=
  .next ((s.putReg .a (and8 s.regs.a n)).advance 2)

/-- `XOR r` (R181). -/
def execXorR (r : R8) (s : State) : Result :=
  .next ((s.putReg .a (xor8 s.regs.a (s.reg r))).advance 1)

/-- `XOR (HL)` (R182). -/
def execXorHl (s : State) : Result :=
  .next ((s.putReg .a (xor8 s.regs.a s.atHl)).advance 1)

/-- `XOR n` (R183). -/
def execXorN (n : Byte) (s : State) : Result :=
  .next ((s.putReg .a (xor8 s.regs.a n)).advance 2)

/-- `OR r` (R184). -/
def execOrR (r : R8) (s : State) : Result :=
  .next ((s.putReg .a (or8 s.regs.a (s.reg r))).advance 1)

/-- `OR (HL)` (R185). -/
def execOrHl (s : State) : Result :=
  .next ((s.putReg .a (or8 s.regs.a s.atHl)).advance 1)

/-- `OR n` (R186). -/
def execOrN (n : Byte) (s : State) : Result :=
  .next ((s.putReg .a (or8 s.regs.a n)).advance 2)

/-- `CP r` (R187): flags only, A is not written. -/
def execCpR (r : R8) (s : State) : Result :=
  .next ((s.setFlags (sub8 s.regs.a (s.reg r) false).2).advance 1)

/-- `CP (HL)` (R188). -/
def execCpHl (s : State) : Result :=
  .next ((s.setFlags (sub8 s.regs.a s.atHl false).2).advance 1)

/-- `CP n` (R189). -/
def execCpN (n : Byte) (s : State) : Result :=
  .next ((s.setFlags (sub8 s.regs.a n false).2).advance 2)

/-- `INC r` (R190). -/
def execIncR (r : R8) (s : State) : Result :=
  .next ((s.putReg r (inc8 (s.reg r) s.flags)).advance 1)

/-- `INC (HL)` (R191): the flags follow the value read and the result computed, whatever the address stores. -/
def execIncHl (s : State) : Result :=
  .next ((s.putAtHl (inc8 s.atHl s.flags)).advance 1)

/-- `DEC r` (R192). -/
def execDecR (r : R8) (s : State) : Result :=
  .next ((s.putReg r (dec8 (s.reg r) s.flags)).advance 1)

/-- `DEC (HL)` (R193). -/
def execDecHl (s : State) : Result :=
  .next ((s.putAtHl (dec8 s.atHl s.flags)).advance 1)

/-- `DAA` (R194). -/
def execDaa (s : State) : Result :=
  .next ((s.putReg .a (daa8 s.regs.a s.flags)).advance 1)

/-- `CPL` (R195). -/
def execCpl (s : State) : Result :=
  .next ((s.putReg .a (~~~s.regs.a, { s.flags with n := true, h := true })).advance 1)

/-- `SCF` (R196). -/
def execScf (s : State) : Result :=
  .next ((s.setFlags { s.flags with n := false, h := false, c := true }).advance 1)

/-- `CCF` (R197). -/
def execCcf (s : State) : Result :=
  .next ((s.setFlags { s.flags with n := false, h := false, c := !s.flags.c }).advance 1)

end Sys2Proof.Machine
end

