-- ==== Sys2Proof/Machine/BitOps.lean ====
section
/-! DEFINITION. BIT, RES and SET (spec 45_rotate_bit.md R260 to R265). -/

namespace Sys2Proof.Machine

/-- `BIT b,r` (R260): no register is written. -/
def execBitR (b : BitVec 3) (r : R8) (s : State) : Result :=
  .next ((s.setFlags (bitFlags (s.reg r) b s.flags)).advance 2)

/-- `BIT b,(HL)` (R261): memory is read once and not written. -/
def execBitHl (b : BitVec 3) (s : State) : Result :=
  .next ((s.setFlags (bitFlags s.atHl b s.flags)).advance 2)

/-- `RES b,r` (R262). -/
def execResR (b : BitVec 3) (r : R8) (s : State) : Result :=
  .next ((s.setReg r (resBit (s.reg r) b)).advance 2)

/-- `RES b,(HL)` (R263). -/
def execResHl (b : BitVec 3) (s : State) : Result :=
  .next ((s.setAtHl (resBit s.atHl b)).advance 2)

/-- `SET b,r` (R264). -/
def execSetR (b : BitVec 3) (r : R8) (s : State) : Result :=
  .next ((s.setReg r (setBit (s.reg r) b)).advance 2)

/-- `SET b,(HL)` (R265). -/
def execSetHl (b : BitVec 3) (s : State) : Result :=
  .next ((s.setAtHl (setBit s.atHl b)).advance 2)

end Sys2Proof.Machine
end

