-- ==== Sys2Proof/Machine/Control.lean ====
section
/-! DEFINITION. Control transfer (spec 44_control.md R220 to R230).  No flag changes, and there is no delay slot. -/

namespace Sys2Proof.Machine

/-- `JP nn` (R220). -/
def execJpNn (nn : Word) (s : State) : Result :=
  .next (s.jump nn)

/-- `JP cc,nn` (R221). -/
def execJpCcNn (cc : Cond) (nn : Word) (s : State) : Result :=
  .next (if s.flags.cond cc then s.jump nn else s.advance 3)

/-- `JP HL` (R222): the target is HL itself. -/
def execJpHl (s : State) : Result :=
  .next (s.jump s.hl)

/-- `JR e` (R223). -/
def execJrE (e : Byte) (s : State) : Result :=
  .next (s.jump (s.jrTarget e))

/-- `JR cc,e` (R224). -/
def execJrCcE (cc : Cond) (e : Byte) (s : State) : Result :=
  .next (if s.flags.cond cc then s.jump (s.jrTarget e) else s.advance 2)

/-- `CALL nn` (R225). -/
def execCallNn (nn : Word) (s : State) : Result :=
  .next ((s.push16 (s.pc + 3)).jump nn)

/-- `CALL cc,nn` (R226): not taken, SP and memory are untouched. -/
def execCallCcNn (cc : Cond) (nn : Word) (s : State) : Result :=
  .next (if s.flags.cond cc then (s.push16 (s.pc + 3)).jump nn else s.advance 3)

/-- `RET` (R227). -/
def execRet (s : State) : Result :=
  .next (s.popSp.jump s.popValue)

/-- `RET cc` (R228). -/
def execRetCc (cc : Cond) (s : State) : Result :=
  .next (if s.flags.cond cc then s.popSp.jump s.popValue else s.advance 1)

/-- `RETI` (R229): IME is set at once and `ime_pending` is not changed. -/
def execReti (s : State) : Result :=
  .next s.returnFromIrq

/-- `RST t` (R230). -/
def execRstT (t : BitVec 3) (s : State) : Result :=
  .next ((s.push16 (s.pc + 1)).jump (rstTarget t))

end Sys2Proof.Machine
end

