-- ==== Sys2Proof/Machine/Load16.lean ====
section
/-! DEFINITION. The 16-bit loads, PUSH and POP (spec 41_load16_stack.md R150 to R155). -/

namespace Sys2Proof.Machine

/-- `LD rr,nn` (R150). -/
def execLdRrNn (p : Pair) (nn : Word) (s : State) : Result :=
  .next ((s.setPair p nn).advance 3)

/-- `LD (nn),SP` (R151). -/
def execLdNnSp (nn : Word) (s : State) : Result :=
  .next ((s.writeBus16 nn s.sp).advance 3)

/-- `LD SP,HL` (R152). -/
def execLdSpHl (s : State) : Result :=
  .next ((s.setSp s.hl).advance 1)

/-- `LD HL,SP+e` (R153): SP is unchanged. -/
def execLdHlSpE (e : Byte) (s : State) : Result :=
  .next (((s.setHl (addSp16 s.sp e).1).setFlags (addSp16 s.sp e).2).advance 2)

/-- `PUSH qq` (R154). -/
def execPushQq (q : StackPair) (s : State) : Result :=
  .next ((s.push16 (s.stackPair q)).advance 1)

/-- `POP qq` (R155); POP AF writes all four flags (R14). -/
def execPopQq (q : StackPair) (s : State) : Result :=
  .next ((s.popSp.setStackPair q s.popValue).advance 1)

end Sys2Proof.Machine
end

