-- ==== Sys2Proof/Machine/Load8.lean ====
section
/-! DEFINITION. The 8-bit loads (spec 40_load8.md R120 to R138).  No flag changes; the accesses use HL, BC, DE and C as they are before the instruction. -/

namespace Sys2Proof.Machine

/-- `LD r,r'` (R120). -/
def execLdRR (dst src : R8) (s : State) : Result :=
  .next ((s.setReg dst (s.reg src)).advance 1)

/-- `LD r,n` (R121). -/
def execLdRN (r : R8) (n : Byte) (s : State) : Result :=
  .next ((s.setReg r n).advance 2)

/-- `LD r,(HL)` (R122): the address is formed before H or L is overwritten. -/
def execLdRHl (r : R8) (s : State) : Result :=
  .next ((s.setReg r s.atHl).advance 1)

/-- `LD (HL),r` (R123). -/
def execLdHlR (r : R8) (s : State) : Result :=
  .next ((s.setAtHl (s.reg r)).advance 1)

/-- `LD (HL),n` (R124). -/
def execLdHlN (n : Byte) (s : State) : Result :=
  .next ((s.setAtHl n).advance 2)

/-- `LD A,(BC)` (R125). -/
def execLdABc (s : State) : Result :=
  .next ((s.setReg .a (s.readBus s.bc)).advance 1)

/-- `LD A,(DE)` (R126). -/
def execLdADe (s : State) : Result :=
  .next ((s.setReg .a (s.readBus s.de)).advance 1)

/-- `LD (BC),A` (R127). -/
def execLdBcA (s : State) : Result :=
  .next ((s.writeBus s.bc s.regs.a).advance 1)

/-- `LD (DE),A` (R128). -/
def execLdDeA (s : State) : Result :=
  .next ((s.writeBus s.de s.regs.a).advance 1)

/-- `LD A,(nn)` (R129). -/
def execLdANn (nn : Word) (s : State) : Result :=
  .next ((s.setReg .a (s.readBus nn)).advance 3)

/-- `LD (nn),A` (R130). -/
def execLdNnA (nn : Word) (s : State) : Result :=
  .next ((s.writeBus nn s.regs.a).advance 3)

/-- `LDH A,(C)` (R131). -/
def execLdhAC (s : State) : Result :=
  .next ((s.setReg .a (s.readBus (highPage s.regs.c))).advance 1)

/-- `LDH (C),A` (R132). -/
def execLdhCA (s : State) : Result :=
  .next ((s.writeBus (highPage s.regs.c) s.regs.a).advance 1)

/-- `LDH A,(n)` (R133). -/
def execLdhAN (n : Byte) (s : State) : Result :=
  .next ((s.setReg .a (s.readBus (highPage n))).advance 2)

/-- `LDH (n),A` (R134). -/
def execLdhNA (n : Byte) (s : State) : Result :=
  .next ((s.writeBus (highPage n) s.regs.a).advance 2)

/-- `LD A,(HL-)` (R135): load, then decrement HL. -/
def execLdAHlDec (s : State) : Result :=
  .next (((s.setReg .a s.atHl).setHl (s.hl - 1)).advance 1)

/-- `LD (HL-),A` (R136): store, then decrement HL. -/
def execLdHlDecA (s : State) : Result :=
  .next (((s.setAtHl s.regs.a).setHl (s.hl - 1)).advance 1)

/-- `LD A,(HL+)` (R137): load, then increment HL. -/
def execLdAHlInc (s : State) : Result :=
  .next (((s.setReg .a s.atHl).setHl (s.hl + 1)).advance 1)

/-- `LD (HL+),A` (R138): store, then increment HL. -/
def execLdHlIncA (s : State) : Result :=
  .next (((s.setAtHl s.regs.a).setHl (s.hl + 1)).advance 1)

end Sys2Proof.Machine
end

