-- ==== Sys2Proof/WellFormed.lean ====
section
/-! DEFINITION. Which terms of `Instr` are instructions.  The operand types already rule out every field value the table excludes (register code 6 is no `R8`), so one check is left: the bare prefix byte. -/

namespace Sys2Proof

/-- "The prefix byte is not an instruction" (30_encoding.md R90): every constructor but `prefixByte` is well formed. -/
def Instr.wellFormed (i : Instr) : Bool := decide (i ≠ .prefixByte)

end Sys2Proof
end

