-- ==== Sys2Proof/Decode.lean ====
section
/-! DEFINITION. Decoding of any bytes and, after it, the encoder (spec 30_encoding.md).  The base table is written in the mask and match form of spec/opcode_table.json; a three-bit register field selects the register row or, at code 6, the `(HL)` row (R94). -/

namespace Sys2Proof

/-- The register a 3-bit code names, or none at code 6, the memory byte at HL (R94). -/
def r8OfCode (k : BitVec 3) : Option R8 :=
  if k = 0 then some .b else if k = 1 then some .c else if k = 2 then some .d else if k = 3 then some .e
  else if k = 4 then some .h else if k = 5 then some .l else if k = 6 then none else some .a

/-- Field rr (R99). -/
def pairOfCode (k : BitVec 2) : Pair :=
  if k = 0 then .bc else if k = 1 then .de else if k = 2 then .hl else .sp

/-- Field qq (R99). -/
def stackPairOfCode (k : BitVec 2) : StackPair :=
  if k = 0 then .bc else if k = 1 then .de else if k = 2 then .hl else .af

/-- Field cc (R95). -/
def condOfCode (k : BitVec 2) : Cond :=
  if k = 0 then .nz else if k = 1 then .z else if k = 2 then .nc else .c

/-- Bits 5..3 of an opcode byte: fields ddd, ooo, bbb and ttt (R92). -/
def midField (b : Byte) : BitVec 3 := b.extractLsb' 3 3

/-- Bits 2..0 of an opcode byte: fields sss and rrr (R92). -/
def lowField (b : Byte) : BitVec 3 := b.extractLsb' 0 3

/-- Bits 5..4 of an opcode byte: fields rr and qq (R92). -/
def pairField (b : Byte) : BitVec 2 := b.extractLsb' 4 2

/-- Bits 4..3 of an opcode byte: field cc (R92). -/
def condField (b : Byte) : BitVec 2 := b.extractLsb' 3 2

/-- A selecting byte matches a table row when `b & mask = match` (R109). -/
def rowMatches (b mask pattern : Byte) : Bool := (b &&& mask) == pattern

/-- Bits 7..3 of an extended-table opcode (R102). -/
def extOpOf (b : Byte) : ExtOp :=
  if rowMatches b 0xF8 0x00 then .rlc
  else if rowMatches b 0xF8 0x08 then .rrc
  else if rowMatches b 0xF8 0x10 then .rl
  else if rowMatches b 0xF8 0x18 then .rr
  else if rowMatches b 0xF8 0x20 then .sla
  else if rowMatches b 0xF8 0x28 then .sra
  else if rowMatches b 0xF8 0x30 then .swap
  else if rowMatches b 0xF8 0x38 then .srl
  else if rowMatches b 0xC0 0x40 then .testBit (midField b)
  else if rowMatches b 0xC0 0x80 then .resetBit (midField b)
  else .setBit (midField b)

/-- The extended table: all 256 bytes are instructions (R102). -/
def decodeExtended (b : Byte) : Instr :=
  match extOpOf b, r8OfCode (lowField b) with
  | .rlc, some r => .rlcR r
  | .rlc, none => .rlcHl
  | .rrc, some r => .rrcR r
  | .rrc, none => .rrcHl
  | .rl, some r => .rlR r
  | .rl, none => .rlHl
  | .rr, some r => .rrR r
  | .rr, none => .rrHl
  | .sla, some r => .slaR r
  | .sla, none => .slaHl
  | .sra, some r => .sraR r
  | .sra, none => .sraHl
  | .swap, some r => .swapR r
  | .swap, none => .swapHl
  | .srl, some r => .srlR r
  | .srl, none => .srlHl
  | .testBit i, some r => .bitR i r
  | .testBit i, none => .bitHl i
  | .resetBit i, some r => .resR i r
  | .resetBit i, none => .resHl i
  | .setBit i, some r => .setR i r
  | .setBit i, none => .setHl i

/-- The row a register field selects: the register's, or the `(HL)` row at code 6 (R94). -/
def byOperand (k : BitVec 3) (onReg : R8 → Instr) (onHl : Instr) : Instr :=
  match r8OfCode k with
  | some r => onReg r
  | none => onHl

/-- The 01dddsss block: loads between registers and `(HL)`, and HALT where both fields are 6 (R94). -/
def decodeLoad (b : Byte) : Instr :=
  match r8OfCode (midField b), r8OfCode (lowField b) with
  | some dst, some src => .ldRR dst src
  | some dst, none => .ldRHl dst
  | none, some src => .ldHlR src
  | none, none => .halt

/-- The base table (R101): the entry of opcode `b`, with `n1` and `n2` the two bytes after it.
Every byte has a row; the eleven unassigned bytes have rows of their own (R103). -/
def decodeBase (b n1 n2 : Byte) : Instr :=
  if rowMatches b 0xFF 0x00 then .nop
  else if rowMatches b 0xCF 0x01 then .ldRrNn (pairOfCode (pairField b)) (n2 ++ n1)
  else if rowMatches b 0xFF 0x02 then .ldBcA
  else if rowMatches b 0xFF 0x12 then .ldDeA
  else if rowMatches b 0xFF 0x22 then .ldHlIncA
  else if rowMatches b 0xFF 0x32 then .ldHlDecA
  else if rowMatches b 0xCF 0x03 then .incRr (pairOfCode (pairField b))
  else if rowMatches b 0xC7 0x04 then byOperand (midField b) .incR .incHl
  else if rowMatches b 0xC7 0x05 then byOperand (midField b) .decR .decHl
  else if rowMatches b 0xC7 0x06 then byOperand (midField b) (fun r => .ldRN r n1) (.ldHlN n1)
  else if rowMatches b 0xFF 0x07 then .rlca
  else if rowMatches b 0xFF 0x08 then .ldNnSp (n2 ++ n1)
  else if rowMatches b 0xCF 0x09 then .addHlRr (pairOfCode (pairField b))
  else if rowMatches b 0xFF 0x0A then .ldABc
  else if rowMatches b 0xFF 0x1A then .ldADe
  else if rowMatches b 0xFF 0x2A then .ldAHlInc
  else if rowMatches b 0xFF 0x3A then .ldAHlDec
  else if rowMatches b 0xCF 0x0B then .decRr (pairOfCode (pairField b))
  else if rowMatches b 0xFF 0x0F then .rrca
  else if rowMatches b 0xFF 0x10 then .stop
  else if rowMatches b 0xFF 0x17 then .rla
  else if rowMatches b 0xFF 0x18 then .jrE n1
  else if rowMatches b 0xFF 0x1F then .rra
  else if rowMatches b 0xE7 0x20 then .jrCcE (condOfCode (condField b)) n1
  else if rowMatches b 0xFF 0x27 then .daa
  else if rowMatches b 0xFF 0x2F then .cpl
  else if rowMatches b 0xFF 0x37 then .scf
  else if rowMatches b 0xFF 0x3F then .ccf
  else if rowMatches b 0xC0 0x40 then decodeLoad b
  else if rowMatches b 0xF8 0x80 then byOperand (lowField b) .addAR .addAHl
  else if rowMatches b 0xFF 0xC6 then .addAN n1
  else if rowMatches b 0xF8 0x88 then byOperand (lowField b) .adcAR .adcAHl
  else if rowMatches b 0xFF 0xCE then .adcAN n1
  else if rowMatches b 0xF8 0x90 then byOperand (lowField b) .subR .subHl
  else if rowMatches b 0xFF 0xD6 then .subN n1
  else if rowMatches b 0xF8 0x98 then byOperand (lowField b) .sbcAR .sbcAHl
  else if rowMatches b 0xFF 0xDE then .sbcAN n1
  else if rowMatches b 0xF8 0xA0 then byOperand (lowField b) .andR .andHl
  else if rowMatches b 0xFF 0xE6 then .andN n1
  else if rowMatches b 0xF8 0xA8 then byOperand (lowField b) .xorR .xorHl
  else if rowMatches b 0xFF 0xEE then .xorN n1
  else if rowMatches b 0xF8 0xB0 then byOperand (lowField b) .orR .orHl
  else if rowMatches b 0xFF 0xF6 then .orN n1
  else if rowMatches b 0xF8 0xB8 then byOperand (lowField b) .cpR .cpHl
  else if rowMatches b 0xFF 0xFE then .cpN n1
  else if rowMatches b 0xE7 0xC0 then .retCc (condOfCode (condField b))
  else if rowMatches b 0xCF 0xC1 then .popQq (stackPairOfCode (pairField b))
  else if rowMatches b 0xE7 0xC2 then .jpCcNn (condOfCode (condField b)) (n2 ++ n1)
  else if rowMatches b 0xFF 0xC3 then .jpNn (n2 ++ n1)
  else if rowMatches b 0xE7 0xC4 then .callCcNn (condOfCode (condField b)) (n2 ++ n1)
  else if rowMatches b 0xCF 0xC5 then .pushQq (stackPairOfCode (pairField b))
  else if rowMatches b 0xC7 0xC7 then .rstT (midField b)
  else if rowMatches b 0xFF 0xC9 then .ret
  else if rowMatches b 0xFF 0xCB then .prefixByte
  else if rowMatches b 0xFF 0xCD then .callNn (n2 ++ n1)
  else if rowMatches b 0xFF 0xD9 then .reti
  else if rowMatches b 0xFF 0xE0 then .ldhNA n1
  else if rowMatches b 0xFF 0xE2 then .ldhCA
  else if rowMatches b 0xFF 0xE8 then .addSpE n1
  else if rowMatches b 0xFF 0xE9 then .jpHl
  else if rowMatches b 0xFF 0xEA then .ldNnA (n2 ++ n1)
  else if rowMatches b 0xFF 0xF0 then .ldhAN n1
  else if rowMatches b 0xFF 0xF2 then .ldhAC
  else if rowMatches b 0xFF 0xF3 then .di
  else if rowMatches b 0xFF 0xF8 then .ldHlSpE n1
  else if rowMatches b 0xFF 0xF9 then .ldSpHl
  else if rowMatches b 0xFF 0xFA then .ldANn (n2 ++ n1)
  else if rowMatches b 0xFF 0xFB then .ei
  else if rowMatches b 0xFF 0xD3 then .illegalD3
  else if rowMatches b 0xFF 0xDB then .illegalDB
  else if rowMatches b 0xFF 0xDD then .illegalDD
  else if rowMatches b 0xFF 0xE3 then .illegalE3
  else if rowMatches b 0xFF 0xE4 then .illegalE4
  else if rowMatches b 0xFF 0xEB then .illegalEB
  else if rowMatches b 0xFF 0xEC then .illegalEC
  else if rowMatches b 0xFF 0xED then .illegalED
  else if rowMatches b 0xFF 0xF4 then .illegalF4
  else if rowMatches b 0xFF 0xFC then .illegalFC
  else .illegalFD

/-- The instruction whose bytes are `b0`, `b1`, `b2`, as many of them as it has (R90): after the prefix byte the
extended table, else the base table.  Bytes past its length are ignored. -/
def decodeBytes (b0 b1 b2 : Byte) : Instr :=
  if b0 = Config.prefixCode then decodeExtended b1 else decodeBase b0 b1 b2

/-- The length in bytes, prefix included (R91, R106). -/
def Instr.length : Instr → Nat
  | .nop => 1
  | .ldRrNn _ _ => 3
  | .ldBcA => 1
  | .ldDeA => 1
  | .ldHlIncA => 1
  | .ldHlDecA => 1
  | .incRr _ => 1
  | .incR _ => 1
  | .incHl => 1
  | .decR _ => 1
  | .decHl => 1
  | .ldRN _ _ => 2
  | .ldHlN _ => 2
  | .rlca => 1
  | .ldNnSp _ => 3
  | .addHlRr _ => 1
  | .ldABc => 1
  | .ldADe => 1
  | .ldAHlInc => 1
  | .ldAHlDec => 1
  | .decRr _ => 1
  | .rrca => 1
  | .stop => 1
  | .rla => 1
  | .jrE _ => 2
  | .rra => 1
  | .jrCcE _ _ => 2
  | .daa => 1
  | .cpl => 1
  | .scf => 1
  | .ccf => 1
  | .ldRR _ _ => 1
  | .ldRHl _ => 1
  | .ldHlR _ => 1
  | .halt => 1
  | .addAR _ => 1
  | .addAHl => 1
  | .addAN _ => 2
  | .adcAR _ => 1
  | .adcAHl => 1
  | .adcAN _ => 2
  | .subR _ => 1
  | .subHl => 1
  | .subN _ => 2
  | .sbcAR _ => 1
  | .sbcAHl => 1
  | .sbcAN _ => 2
  | .andR _ => 1
  | .andHl => 1
  | .andN _ => 2
  | .xorR _ => 1
  | .xorHl => 1
  | .xorN _ => 2
  | .orR _ => 1
  | .orHl => 1
  | .orN _ => 2
  | .cpR _ => 1
  | .cpHl => 1
  | .cpN _ => 2
  | .retCc _ => 1
  | .popQq _ => 1
  | .jpCcNn _ _ => 3
  | .jpNn _ => 3
  | .callCcNn _ _ => 3
  | .pushQq _ => 1
  | .rstT _ => 1
  | .ret => 1
  | .prefixByte => 1
  | .callNn _ => 3
  | .reti => 1
  | .ldhNA _ => 2
  | .ldhCA => 1
  | .addSpE _ => 2
  | .jpHl => 1
  | .ldNnA _ => 3
  | .ldhAN _ => 2
  | .ldhAC => 1
  | .di => 1
  | .ldHlSpE _ => 2
  | .ldSpHl => 1
  | .ldANn _ => 3
  | .ei => 1
  | .illegalD3 => 1
  | .illegalDB => 1
  | .illegalDD => 1
  | .illegalE3 => 1
  | .illegalE4 => 1
  | .illegalEB => 1
  | .illegalEC => 1
  | .illegalED => 1
  | .illegalF4 => 1
  | .illegalFC => 1
  | .illegalFD => 1
  | .rlcR _ => 2
  | .rlcHl => 2
  | .rrcR _ => 2
  | .rrcHl => 2
  | .rlR _ => 2
  | .rlHl => 2
  | .rrR _ => 2
  | .rrHl => 2
  | .slaR _ => 2
  | .slaHl => 2
  | .sraR _ => 2
  | .sraHl => 2
  | .swapR _ => 2
  | .swapHl => 2
  | .srlR _ => 2
  | .srlHl => 2
  | .bitR _ _ => 2
  | .bitHl _ => 2
  | .resR _ _ => 2
  | .resHl _ => 2
  | .setR _ _ => 2
  | .setHl _ => 2

/-- Why a byte sequence is not a whole instruction. -/
inductive DecodeReject where
  /-- There is no byte to decode. -/
  | noBytes
  /-- The prefix byte stands alone: it is not an instruction (R90). -/
  | prefixAlone
  /-- The operand bytes the format of opcode `b` names are missing (R92). -/
  | operandMissing (b : Byte)
deriving DecidableEq, Repr

/-- The answer of `decode`: an instruction with the bytes after it, or a named rejection. -/
inductive DecodeResult where
  | ok (i : Instr) (rest : List Byte)
  | rejected (why : DecodeReject)
deriving DecidableEq, Repr

/-- Decoding of any byte sequence (R90, R91). -/
def decode : List Byte → DecodeResult
  | [] => .rejected .noBytes
  | b0 :: rest =>
    let i := decodeBytes b0 (rest.getD 0 0) (rest.getD 1 0)
    if i.length ≤ rest.length + 1 then .ok i (rest.drop (i.length - 1))
    else if b0 = Config.prefixCode then .rejected .prefixAlone
    else .rejected (.operandMissing b0)

/-- The instruction that a table word of `nbits` bits stands for, the bits above them zero; bit 0 of `w` is the least
significant bit of the first byte, and the second byte is bits 15..8.  An extended-table instruction so has 0xCB in bits 7..0. -/
def decodeTableWord (nbits w : Nat) : Option Instr :=
  let v := w % 2 ^ nbits
  match decode [BitVec.ofNat 8 v, BitVec.ofNat 8 (v / 256), BitVec.ofNat 8 (v / 65536)] with
  | .ok i _ => some i
  | .rejected _ => none

/-- The 3-bit code of a register (R94). -/
def R8.code : R8 → BitVec 3
  | .b => 0 | .c => 1 | .d => 2 | .e => 3 | .h => 4 | .l => 5 | .a => 7

/-- The code of field rr (R99). -/
def Pair.code : Pair → BitVec 2
  | .bc => 0 | .de => 1 | .hl => 2 | .sp => 3

/-- The code of field qq (R99). -/
def StackPair.code : StackPair → BitVec 2
  | .bc => 0 | .de => 1 | .hl => 2 | .af => 3

/-- The code of field cc (R95). -/
def Cond.code : Cond → BitVec 2
  | .nz => 0 | .z => 1 | .nc => 2 | .c => 3

/-- A 16-bit immediate as it lies after the opcode: low byte first (R98). -/
def immBytes (nn : Word) : List Byte := [nn.extractLsb' 0 8, nn.extractLsb' 8 8]

/-- The bytes of an instruction, from the bit patterns of R101 and R102. -/
def encode : Instr → List Byte
  | .nop => [0x00]
  | .ldRrNn p nn => (0b00#2 ++ p.code ++ 0b0001#4) :: immBytes nn
  | .ldBcA => [0x02]
  | .ldDeA => [0x12]
  | .ldHlIncA => [0x22]
  | .ldHlDecA => [0x32]
  | .incRr p => [0b00#2 ++ p.code ++ 0b0011#4]
  | .incR r => [0b00#2 ++ r.code ++ 0b100#3]
  | .incHl => [0x34]
  | .decR r => [0b00#2 ++ r.code ++ 0b101#3]
  | .decHl => [0x35]
  | .ldRN r n => [0b00#2 ++ r.code ++ 0b110#3, n]
  | .ldHlN n => [0x36, n]
  | .rlca => [0x07]
  | .ldNnSp nn => 0x08 :: immBytes nn
  | .addHlRr p => [0b00#2 ++ p.code ++ 0b1001#4]
  | .ldABc => [0x0A]
  | .ldADe => [0x1A]
  | .ldAHlInc => [0x2A]
  | .ldAHlDec => [0x3A]
  | .decRr p => [0b00#2 ++ p.code ++ 0b1011#4]
  | .rrca => [0x0F]
  | .stop => [0x10]
  | .rla => [0x17]
  | .jrE e => [0x18, e]
  | .rra => [0x1F]
  | .jrCcE cc e => [0b001#3 ++ cc.code ++ 0b000#3, e]
  | .daa => [0x27]
  | .cpl => [0x2F]
  | .scf => [0x37]
  | .ccf => [0x3F]
  | .ldRR dst src => [0b01#2 ++ dst.code ++ src.code]
  | .ldRHl r => [0b01#2 ++ r.code ++ 0b110#3]
  | .ldHlR r => [0b01110#5 ++ r.code]
  | .halt => [0x76]
  | .addAR r => [0b10000#5 ++ r.code]
  | .addAHl => [0x86]
  | .addAN n => [0xC6, n]
  | .adcAR r => [0b10001#5 ++ r.code]
  | .adcAHl => [0x8E]
  | .adcAN n => [0xCE, n]
  | .subR r => [0b10010#5 ++ r.code]
  | .subHl => [0x96]
  | .subN n => [0xD6, n]
  | .sbcAR r => [0b10011#5 ++ r.code]
  | .sbcAHl => [0x9E]
  | .sbcAN n => [0xDE, n]
  | .andR r => [0b10100#5 ++ r.code]
  | .andHl => [0xA6]
  | .andN n => [0xE6, n]
  | .xorR r => [0b10101#5 ++ r.code]
  | .xorHl => [0xAE]
  | .xorN n => [0xEE, n]
  | .orR r => [0b10110#5 ++ r.code]
  | .orHl => [0xB6]
  | .orN n => [0xF6, n]
  | .cpR r => [0b10111#5 ++ r.code]
  | .cpHl => [0xBE]
  | .cpN n => [0xFE, n]
  | .retCc cc => [0b110#3 ++ cc.code ++ 0b000#3]
  | .popQq q => [0b11#2 ++ q.code ++ 0b0001#4]
  | .jpCcNn cc nn => (0b110#3 ++ cc.code ++ 0b010#3) :: immBytes nn
  | .jpNn nn => 0xC3 :: immBytes nn
  | .callCcNn cc nn => (0b110#3 ++ cc.code ++ 0b100#3) :: immBytes nn
  | .pushQq q => [0b11#2 ++ q.code ++ 0b0101#4]
  | .rstT t => [0b11#2 ++ t ++ 0b111#3]
  | .ret => [0xC9]
  | .prefixByte => [0xCB]
  | .callNn nn => 0xCD :: immBytes nn
  | .reti => [0xD9]
  | .ldhNA n => [0xE0, n]
  | .ldhCA => [0xE2]
  | .addSpE e => [0xE8, e]
  | .jpHl => [0xE9]
  | .ldNnA nn => 0xEA :: immBytes nn
  | .ldhAN n => [0xF0, n]
  | .ldhAC => [0xF2]
  | .di => [0xF3]
  | .ldHlSpE e => [0xF8, e]
  | .ldSpHl => [0xF9]
  | .ldANn nn => 0xFA :: immBytes nn
  | .ei => [0xFB]
  | .illegalD3 => [0xD3]
  | .illegalDB => [0xDB]
  | .illegalDD => [0xDD]
  | .illegalE3 => [0xE3]
  | .illegalE4 => [0xE4]
  | .illegalEB => [0xEB]
  | .illegalEC => [0xEC]
  | .illegalED => [0xED]
  | .illegalF4 => [0xF4]
  | .illegalFC => [0xFC]
  | .illegalFD => [0xFD]
  | .rlcR r => [0xCB, 0b00000#5 ++ r.code]
  | .rlcHl => [0xCB, 0x06]
  | .rrcR r => [0xCB, 0b00001#5 ++ r.code]
  | .rrcHl => [0xCB, 0x0E]
  | .rlR r => [0xCB, 0b00010#5 ++ r.code]
  | .rlHl => [0xCB, 0x16]
  | .rrR r => [0xCB, 0b00011#5 ++ r.code]
  | .rrHl => [0xCB, 0x1E]
  | .slaR r => [0xCB, 0b00100#5 ++ r.code]
  | .slaHl => [0xCB, 0x26]
  | .sraR r => [0xCB, 0b00101#5 ++ r.code]
  | .sraHl => [0xCB, 0x2E]
  | .swapR r => [0xCB, 0b00110#5 ++ r.code]
  | .swapHl => [0xCB, 0x36]
  | .srlR r => [0xCB, 0b00111#5 ++ r.code]
  | .srlHl => [0xCB, 0x3E]
  | .bitR b r => [0xCB, 0b01#2 ++ b ++ r.code]
  | .bitHl b => [0xCB, 0b01#2 ++ b ++ 0b110#3]
  | .resR b r => [0xCB, 0b10#2 ++ b ++ r.code]
  | .resHl b => [0xCB, 0b10#2 ++ b ++ 0b110#3]
  | .setR b r => [0xCB, 0b11#2 ++ b ++ r.code]
  | .setHl b => [0xCB, 0b11#2 ++ b ++ 0b110#3]

end Sys2Proof
end

