-- ==== Sys2Proof/Machine/Rotate.lean ====
section
/-! DEFINITION. Rotates, shifts and SWAP: of A in the base table and the extended table's group 00 (spec 45_rotate_bit.md R240 to R259). -/

namespace Sys2Proof.Machine

/-- `RLCA` (R240). -/
def execRlca (s : State) : Result :=
  .next ((s.putReg .a (rotateAFlags (rlcFn s.regs.a s.flags.c))).advance 1)

/-- `RRCA` (R241). -/
def execRrca (s : State) : Result :=
  .next ((s.putReg .a (rotateAFlags (rrcFn s.regs.a s.flags.c))).advance 1)

/-- `RLA` (R242). -/
def execRla (s : State) : Result :=
  .next ((s.putReg .a (rotateAFlags (rlFn s.regs.a s.flags.c))).advance 1)

/-- `RRA` (R243). -/
def execRra (s : State) : Result :=
  .next ((s.putReg .a (rotateAFlags (rrFn s.regs.a s.flags.c))).advance 1)

/-- `RLC r` (R244). -/
def execRlcR (r : R8) (s : State) : Result :=
  .next ((s.putReg r (shiftFlags (rlcFn (s.reg r) s.flags.c))).advance 2)

/-- `RLC (HL)` (R245). -/
def execRlcHl (s : State) : Result :=
  .next ((s.putAtHl (shiftFlags (rlcFn s.atHl s.flags.c))).advance 2)

/-- `RRC r` (R246). -/
def execRrcR (r : R8) (s : State) : Result :=
  .next ((s.putReg r (shiftFlags (rrcFn (s.reg r) s.flags.c))).advance 2)

/-- `RRC (HL)` (R247). -/
def execRrcHl (s : State) : Result :=
  .next ((s.putAtHl (shiftFlags (rrcFn s.atHl s.flags.c))).advance 2)

/-- `RL r` (R248). -/
def execRlR (r : R8) (s : State) : Result :=
  .next ((s.putReg r (shiftFlags (rlFn (s.reg r) s.flags.c))).advance 2)

/-- `RL (HL)` (R249). -/
def execRlHl (s : State) : Result :=
  .next ((s.putAtHl (shiftFlags (rlFn s.atHl s.flags.c))).advance 2)

/-- `RR r` (R250). -/
def execRrR (r : R8) (s : State) : Result :=
  .next ((s.putReg r (shiftFlags (rrFn (s.reg r) s.flags.c))).advance 2)

/-- `RR (HL)` (R251). -/
def execRrHl (s : State) : Result :=
  .next ((s.putAtHl (shiftFlags (rrFn s.atHl s.flags.c))).advance 2)

/-- `SLA r` (R252). -/
def execSlaR (r : R8) (s : State) : Result :=
  .next ((s.putReg r (shiftFlags (slaFn (s.reg r) s.flags.c))).advance 2)

/-- `SLA (HL)` (R253). -/
def execSlaHl (s : State) : Result :=
  .next ((s.putAtHl (shiftFlags (slaFn s.atHl s.flags.c))).advance 2)

/-- `SRA r` (R254). -/
def execSraR (r : R8) (s : State) : Result :=
  .next ((s.putReg r (shiftFlags (sraFn (s.reg r) s.flags.c))).advance 2)

/-- `SRA (HL)` (R255). -/
def execSraHl (s : State) : Result :=
  .next ((s.putAtHl (shiftFlags (sraFn s.atHl s.flags.c))).advance 2)

/-- `SWAP r` (R256). -/
def execSwapR (r : R8) (s : State) : Result :=
  .next ((s.putReg r (shiftFlags (swapFn (s.reg r) s.flags.c))).advance 2)

/-- `SWAP (HL)` (R257). -/
def execSwapHl (s : State) : Result :=
  .next ((s.putAtHl (shiftFlags (swapFn s.atHl s.flags.c))).advance 2)

/-- `SRL r` (R258). -/
def execSrlR (r : R8) (s : State) : Result :=
  .next ((s.putReg r (shiftFlags (srlFn (s.reg r) s.flags.c))).advance 2)

/-- `SRL (HL)` (R259). -/
def execSrlHl (s : State) : Result :=
  .next ((s.putAtHl (shiftFlags (srlFn s.atHl s.flags.c))).advance 2)

end Sys2Proof.Machine
end

