-- ==== Sys2Proof/Machine/PrefixByte.lean ====
section
/-! DEFINITION. The prefix byte (spec 30_encoding.md R90): the meaning of the table's row 0xCB. -/

namespace Sys2Proof.Machine

/-- The prefix byte at PC: "fetch the next byte and decode from the extended opcode table", then that entry's rule; it "has no effect
of its own, costs no cycles of its own" (R90).  `decode` never answers `prefixByte`, since it reads the second byte itself. -/
def execPrefixByte (s : State) : Result :=
  match extOpOf (s.readBus (s.pc + 1)), r8OfCode (lowField (s.readBus (s.pc + 1))) with
  | .rlc, some r => execRlcR r s
  | .rlc, none => execRlcHl s
  | .rrc, some r => execRrcR r s
  | .rrc, none => execRrcHl s
  | .rl, some r => execRlR r s
  | .rl, none => execRlHl s
  | .rr, some r => execRrR r s
  | .rr, none => execRrHl s
  | .sla, some r => execSlaR r s
  | .sla, none => execSlaHl s
  | .sra, some r => execSraR r s
  | .sra, none => execSraHl s
  | .swap, some r => execSwapR r s
  | .swap, none => execSwapHl s
  | .srl, some r => execSrlR r s
  | .srl, none => execSrlHl s
  | .testBit i, some r => execBitR i r s
  | .testBit i, none => execBitHl i s
  | .resetBit i, some r => execResR i r s
  | .resetBit i, none => execResHl i s
  | .setBit i, some r => execSetR i r s
  | .setBit i, none => execSetHl i s

end Sys2Proof.Machine
end

