-- ==== Sys2Proof/Machine/System.lean ====
section
/-! DEFINITION. The system instructions and the eleven unassigned bytes (spec 46_system.md R270 to R275). -/

namespace Sys2Proof.Machine

/-- `NOP` (R270). -/
def execNop (s : State) : Result :=
  .next (s.advance 1)

/-- `HALT` (R271): the waiting itself is the sequencer's (60_exceptions.md R341, R349). -/
def execHalt (s : State) : Result :=
  .next ({ s with halted := true }.advance 1)

/-- `STOP` (R272): raises `Fatal.Unimplemented(0x10, base)`; PC stays at the instruction. -/
def execStop (s : State) : Result :=
  .next (s.raiseFatal (.unimplemented 0x10 .base))

/-- `DI` (R273): at once, and a pending EI is cancelled. -/
def execDi (s : State) : Result :=
  .next ({ s with ime := false, imePending := false }.advance 1)

/-- `EI` (R274): IME itself is set by the sequencer after the next instruction (60_exceptions.md R341). -/
def execEi (s : State) : Result :=
  .next ({ s with imePending := true }.advance 1)

/-- The unassigned byte 0xD3: raises `Fatal.DecodeFailure(0xD3, base)` (R275). -/
def execIllegalD3 (s : State) : Result :=
  .next (s.raiseFatal (.decodeFailure 0xD3 .base))

/-- The unassigned byte 0xDB: raises `Fatal.DecodeFailure(0xDB, base)` (R275). -/
def execIllegalDB (s : State) : Result :=
  .next (s.raiseFatal (.decodeFailure 0xDB .base))

/-- The unassigned byte 0xDD: raises `Fatal.DecodeFailure(0xDD, base)` (R275). -/
def execIllegalDD (s : State) : Result :=
  .next (s.raiseFatal (.decodeFailure 0xDD .base))

/-- The unassigned byte 0xE3: raises `Fatal.DecodeFailure(0xE3, base)` (R275). -/
def execIllegalE3 (s : State) : Result :=
  .next (s.raiseFatal (.decodeFailure 0xE3 .base))

/-- The unassigned byte 0xE4: raises `Fatal.DecodeFailure(0xE4, base)` (R275). -/
def execIllegalE4 (s : State) : Result :=
  .next (s.raiseFatal (.decodeFailure 0xE4 .base))

/-- The unassigned byte 0xEB: raises `Fatal.DecodeFailure(0xEB, base)` (R275). -/
def execIllegalEB (s : State) : Result :=
  .next (s.raiseFatal (.decodeFailure 0xEB .base))

/-- The unassigned byte 0xEC: raises `Fatal.DecodeFailure(0xEC, base)` (R275). -/
def execIllegalEC (s : State) : Result :=
  .next (s.raiseFatal (.decodeFailure 0xEC .base))

/-- The unassigned byte 0xED: raises `Fatal.DecodeFailure(0xED, base)` (R275). -/
def execIllegalED (s : State) : Result :=
  .next (s.raiseFatal (.decodeFailure 0xED .base))

/-- The unassigned byte 0xF4: raises `Fatal.DecodeFailure(0xF4, base)` (R275). -/
def execIllegalF4 (s : State) : Result :=
  .next (s.raiseFatal (.decodeFailure 0xF4 .base))

/-- The unassigned byte 0xFC: raises `Fatal.DecodeFailure(0xFC, base)` (R275). -/
def execIllegalFC (s : State) : Result :=
  .next (s.raiseFatal (.decodeFailure 0xFC .base))

/-- The unassigned byte 0xFD: raises `Fatal.DecodeFailure(0xFD, base)` (R275). -/
def execIllegalFD (s : State) : Result :=
  .next (s.raiseFatal (.decodeFailure 0xFD .base))

end Sys2Proof.Machine
end

