-- ==== Sys2Proof/Machine/Dispatch.lean ====
section
/-! DEFINITION. The dispatch: one arm per constructor of `Instr`, one direct call each. -/

namespace Sys2Proof.Machine

def exec (i : Instr) (s : State) : Host.Outcome State Fault Refusal :=
  match i with
  | .nop => Sys2Proof.Machine.execNop s
  | .ldRrNn p nn => Sys2Proof.Machine.execLdRrNn p nn s
  | .ldBcA => Sys2Proof.Machine.execLdBcA s
  | .ldDeA => Sys2Proof.Machine.execLdDeA s
  | .ldHlIncA => Sys2Proof.Machine.execLdHlIncA s
  | .ldHlDecA => Sys2Proof.Machine.execLdHlDecA s
  | .incRr p => Sys2Proof.Machine.execIncRr p s
  | .incR r => Sys2Proof.Machine.execIncR r s
  | .incHl => Sys2Proof.Machine.execIncHl s
  | .decR r => Sys2Proof.Machine.execDecR r s
  | .decHl => Sys2Proof.Machine.execDecHl s
  | .ldRN r n => Sys2Proof.Machine.execLdRN r n s
  | .ldHlN n => Sys2Proof.Machine.execLdHlN n s
  | .rlca => Sys2Proof.Machine.execRlca s
  | .ldNnSp nn => Sys2Proof.Machine.execLdNnSp nn s
  | .addHlRr p => Sys2Proof.Machine.execAddHlRr p s
  | .ldABc => Sys2Proof.Machine.execLdABc s
  | .ldADe => Sys2Proof.Machine.execLdADe s
  | .ldAHlInc => Sys2Proof.Machine.execLdAHlInc s
  | .ldAHlDec => Sys2Proof.Machine.execLdAHlDec s
  | .decRr p => Sys2Proof.Machine.execDecRr p s
  | .rrca => Sys2Proof.Machine.execRrca s
  | .stop => Sys2Proof.Machine.execStop s
  | .rla => Sys2Proof.Machine.execRla s
  | .jrE e => Sys2Proof.Machine.execJrE e s
  | .rra => Sys2Proof.Machine.execRra s
  | .jrCcE cc e => Sys2Proof.Machine.execJrCcE cc e s
  | .daa => Sys2Proof.Machine.execDaa s
  | .cpl => Sys2Proof.Machine.execCpl s
  | .scf => Sys2Proof.Machine.execScf s
  | .ccf => Sys2Proof.Machine.execCcf s
  | .ldRR dst src => Sys2Proof.Machine.execLdRR dst src s
  | .ldRHl r => Sys2Proof.Machine.execLdRHl r s
  | .ldHlR r => Sys2Proof.Machine.execLdHlR r s
  | .halt => Sys2Proof.Machine.execHalt s
  | .addAR r => Sys2Proof.Machine.execAddAR r s
  | .addAHl => Sys2Proof.Machine.execAddAHl s
  | .addAN n => Sys2Proof.Machine.execAddAN n s
  | .adcAR r => Sys2Proof.Machine.execAdcAR r s
  | .adcAHl => Sys2Proof.Machine.execAdcAHl s
  | .adcAN n => Sys2Proof.Machine.execAdcAN n s
  | .subR r => Sys2Proof.Machine.execSubR r s
  | .subHl => Sys2Proof.Machine.execSubHl s
  | .subN n => Sys2Proof.Machine.execSubN n s
  | .sbcAR r => Sys2Proof.Machine.execSbcAR r s
  | .sbcAHl => Sys2Proof.Machine.execSbcAHl s
  | .sbcAN n => Sys2Proof.Machine.execSbcAN n s
  | .andR r => Sys2Proof.Machine.execAndR r s
  | .andHl => Sys2Proof.Machine.execAndHl s
  | .andN n => Sys2Proof.Machine.execAndN n s
  | .xorR r => Sys2Proof.Machine.execXorR r s
  | .xorHl => Sys2Proof.Machine.execXorHl s
  | .xorN n => Sys2Proof.Machine.execXorN n s
  | .orR r => Sys2Proof.Machine.execOrR r s
  | .orHl => Sys2Proof.Machine.execOrHl s
  | .orN n => Sys2Proof.Machine.execOrN n s
  | .cpR r => Sys2Proof.Machine.execCpR r s
  | .cpHl => Sys2Proof.Machine.execCpHl s
  | .cpN n => Sys2Proof.Machine.execCpN n s
  | .retCc cc => Sys2Proof.Machine.execRetCc cc s
  | .popQq q => Sys2Proof.Machine.execPopQq q s
  | .jpCcNn cc nn => Sys2Proof.Machine.execJpCcNn cc nn s
  | .jpNn nn => Sys2Proof.Machine.execJpNn nn s
  | .callCcNn cc nn => Sys2Proof.Machine.execCallCcNn cc nn s
  | .pushQq q => Sys2Proof.Machine.execPushQq q s
  | .rstT t => Sys2Proof.Machine.execRstT t s
  | .ret => Sys2Proof.Machine.execRet s
  | .prefixByte => Sys2Proof.Machine.execPrefixByte s
  | .callNn nn => Sys2Proof.Machine.execCallNn nn s
  | .reti => Sys2Proof.Machine.execReti s
  | .ldhNA n => Sys2Proof.Machine.execLdhNA n s
  | .ldhCA => Sys2Proof.Machine.execLdhCA s
  | .addSpE e => Sys2Proof.Machine.execAddSpE e s
  | .jpHl => Sys2Proof.Machine.execJpHl s
  | .ldNnA nn => Sys2Proof.Machine.execLdNnA nn s
  | .ldhAN n => Sys2Proof.Machine.execLdhAN n s
  | .ldhAC => Sys2Proof.Machine.execLdhAC s
  | .di => Sys2Proof.Machine.execDi s
  | .ldHlSpE e => Sys2Proof.Machine.execLdHlSpE e s
  | .ldSpHl => Sys2Proof.Machine.execLdSpHl s
  | .ldANn nn => Sys2Proof.Machine.execLdANn nn s
  | .ei => Sys2Proof.Machine.execEi s
  | .illegalD3 => Sys2Proof.Machine.execIllegalD3 s
  | .illegalDB => Sys2Proof.Machine.execIllegalDB s
  | .illegalDD => Sys2Proof.Machine.execIllegalDD s
  | .illegalE3 => Sys2Proof.Machine.execIllegalE3 s
  | .illegalE4 => Sys2Proof.Machine.execIllegalE4 s
  | .illegalEB => Sys2Proof.Machine.execIllegalEB s
  | .illegalEC => Sys2Proof.Machine.execIllegalEC s
  | .illegalED => Sys2Proof.Machine.execIllegalED s
  | .illegalF4 => Sys2Proof.Machine.execIllegalF4 s
  | .illegalFC => Sys2Proof.Machine.execIllegalFC s
  | .illegalFD => Sys2Proof.Machine.execIllegalFD s
  | .rlcR r => Sys2Proof.Machine.execRlcR r s
  | .rlcHl => Sys2Proof.Machine.execRlcHl s
  | .rrcR r => Sys2Proof.Machine.execRrcR r s
  | .rrcHl => Sys2Proof.Machine.execRrcHl s
  | .rlR r => Sys2Proof.Machine.execRlR r s
  | .rlHl => Sys2Proof.Machine.execRlHl s
  | .rrR r => Sys2Proof.Machine.execRrR r s
  | .rrHl => Sys2Proof.Machine.execRrHl s
  | .slaR r => Sys2Proof.Machine.execSlaR r s
  | .slaHl => Sys2Proof.Machine.execSlaHl s
  | .sraR r => Sys2Proof.Machine.execSraR r s
  | .sraHl => Sys2Proof.Machine.execSraHl s
  | .swapR r => Sys2Proof.Machine.execSwapR r s
  | .swapHl => Sys2Proof.Machine.execSwapHl s
  | .srlR r => Sys2Proof.Machine.execSrlR r s
  | .srlHl => Sys2Proof.Machine.execSrlHl s
  | .bitR b r => Sys2Proof.Machine.execBitR b r s
  | .bitHl b => Sys2Proof.Machine.execBitHl b s
  | .resR b r => Sys2Proof.Machine.execResR b r s
  | .resHl b => Sys2Proof.Machine.execResHl b s
  | .setR b r => Sys2Proof.Machine.execSetR b r s
  | .setHl b => Sys2Proof.Machine.execSetHl b s

end Sys2Proof.Machine
end

