-- ==== Sys2Proof/Machine/Cycles.lean ====
section
/-! DEFINITION. `cycles <- k`: the cost in system clock units that an instruction returns to the step sequencer (spec 70_reset_and_hazards.md R392 and each instruction's rule). -/

namespace Sys2Proof.Machine

/-- The cost of an extended-table instruction, the prefix fetch included (R102). -/
def extCycles (b1 : Byte) : Nat :=
  match extOpOf b1, r8OfCode (lowField b1) with
  | _, some _ => 8
  | .testBit _, none => 12
  | _, none => 16

/-- The cost of an instruction run in state `s`, whose flags decide whether a conditional form is taken.  An instruction
that raises a fatal condition has no cost, and the sequencer asks for none (R392). -/
def cycleCost (i : Instr) (s : State) : Nat :=
  match i with
  | .nop => 4
  | .ldRrNn _ _ => 12
  | .ldBcA => 8
  | .ldDeA => 8
  | .ldHlIncA => 8
  | .ldHlDecA => 8
  | .incRr _ => 8
  | .incR _ => 4
  | .incHl => 12
  | .decR _ => 4
  | .decHl => 12
  | .ldRN _ _ => 8
  | .ldHlN _ => 12
  | .rlca => 4
  | .ldNnSp _ => 20
  | .addHlRr _ => 8
  | .ldABc => 8
  | .ldADe => 8
  | .ldAHlInc => 8
  | .ldAHlDec => 8
  | .decRr _ => 8
  | .rrca => 4
  | .stop => 0
  | .rla => 4
  | .jrE _ => 12
  | .rra => 4
  | .jrCcE cc _ => if s.flags.cond cc then 12 else 8
  | .daa => 4
  | .cpl => 4
  | .scf => 4
  | .ccf => 4
  | .ldRR _ _ => 4
  | .ldRHl _ => 8
  | .ldHlR _ => 8
  | .halt => 4
  | .addAR _ => 4
  | .addAHl => 8
  | .addAN _ => 8
  | .adcAR _ => 4
  | .adcAHl => 8
  | .adcAN _ => 8
  | .subR _ => 4
  | .subHl => 8
  | .subN _ => 8
  | .sbcAR _ => 4
  | .sbcAHl => 8
  | .sbcAN _ => 8
  | .andR _ => 4
  | .andHl => 8
  | .andN _ => 8
  | .xorR _ => 4
  | .xorHl => 8
  | .xorN _ => 8
  | .orR _ => 4
  | .orHl => 8
  | .orN _ => 8
  | .cpR _ => 4
  | .cpHl => 8
  | .cpN _ => 8
  | .retCc cc => if s.flags.cond cc then 20 else 8
  | .popQq _ => 12
  | .jpCcNn cc _ => if s.flags.cond cc then 16 else 12
  | .jpNn _ => 16
  | .callCcNn cc _ => if s.flags.cond cc then 24 else 12
  | .pushQq _ => 16
  | .rstT _ => 16
  | .ret => 16
  | .prefixByte => extCycles (s.readBus (s.pc + 1))
  | .callNn _ => 24
  | .reti => 16
  | .ldhNA _ => 12
  | .ldhCA => 8
  | .addSpE _ => 16
  | .jpHl => 4
  | .ldNnA _ => 16
  | .ldhAN _ => 12
  | .ldhAC => 8
  | .di => 4
  | .ldHlSpE _ => 12
  | .ldSpHl => 8
  | .ldANn _ => 16
  | .ei => 4
  | .illegalD3 => 0
  | .illegalDB => 0
  | .illegalDD => 0
  | .illegalE3 => 0
  | .illegalE4 => 0
  | .illegalEB => 0
  | .illegalEC => 0
  | .illegalED => 0
  | .illegalF4 => 0
  | .illegalFC => 0
  | .illegalFD => 0
  | .rlcR _ => 8
  | .rlcHl => 16
  | .rrcR _ => 8
  | .rrcHl => 16
  | .rlR _ => 8
  | .rlHl => 16
  | .rrR _ => 8
  | .rrHl => 16
  | .slaR _ => 8
  | .slaHl => 16
  | .sraR _ => 8
  | .sraHl => 16
  | .swapR _ => 8
  | .swapHl => 16
  | .srlR _ => 8
  | .srlHl => 16
  | .bitR _ _ => 8
  | .bitHl _ => 12
  | .resR _ _ => 8
  | .resHl _ => 16
  | .setR _ _ => 8
  | .setHl _ => 16

end Sys2Proof.Machine
end

