-- ==== Sys2Proof/Machine/Interrupts.lean ====
section
/-! DEFINITION. The interrupt check (spec 60_exceptions.md R347 to R351). -/

namespace Sys2Proof.Machine

/-- The pending sources: requested and enabled (R348, R349). -/
def State.pendingIrqs (s : State) : Byte := s.ie &&& s.ifReg &&& Config.irqMask

/-- The pending source with the lowest bit number, which has the highest priority (R349, R351). -/
def selectIrq (p : Byte) : Option IrqSource :=
  if p.getLsbD 0 then some .vblank
  else if p.getLsbD 1 then some .lcdStat
  else if p.getLsbD 2 then some .timer
  else if p.getLsbD 3 then some .serial
  else if p.getLsbD 4 then some .joypad
  else none

/-- `interrupt_check()` (R349): a pending source ends HALT whatever IME is, and with IME set the first of them is dispatched. -/
def State.interruptCheck (s : State) : State :=
  match selectIrq s.pendingIrqs with
  | none => s
  | some k =>
    let awake := { s with halted := false }
    if s.ime then awake.dispatch k else awake

end Sys2Proof.Machine
end

