-- ==== Sys2Proof/Machine/Ppu.lean ====
section
/-! DEFINITION. The PPU tile engine, the background renderer and the LCD mode state machine (spec 50_lcd_ppu.md R300 to R326). -/

namespace Sys2Proof.Machine

/-- `tile(t)[r][c]` (R300): two bit planes, the first byte of a row the low one, bit 7 the leftmost pixel.  The tile cache is this
function of `mem`, at every instant, and so is no state of its own (R301, 10_state.md R32). -/
def State.tilePixel (s : State) (t r c : Nat) : Shade :=
  let lo := s.memAt (Config.tileBase + 16 * t + 2 * r)
  let hi := s.memAt (Config.tileBase + 16 * t + 2 * r + 1)
  BitVec.ofBool (hi.getLsbD (7 - c)) ++ BitVec.ofBool (lo.getLsbD (7 - c))

/-- `bg_map_base` (R305): the BGTileMap flag, bit 3 of LCDC. -/
def Lcd.mapBase (l : Lcd) : Nat := if l.control.getLsbD 3 then Config.mapBase1 else Config.mapBase0

/-- The tile-map byte `idx` of an entry (R306): the tile number is the byte itself, unsigned. -/
def State.mapEntry (s : State) (row col : Nat) : Byte := s.memAt (s.lcd.mapBase + 32 * row + col)

/-- The shade that `render_scanline` gives column `x` of the current scanline (R325); both scrolled coordinates wrap at 256. -/
def State.pixelShade (s : State) (x : Nat) : Shade :=
  let y := (s.lcd.scy.toNat + s.lcd.scanline.toNat) % 256
  let xx := (s.lcd.scx.toNat + x) % 256
  let idx := s.mapEntry (y / 8) (xx / 8)
  s.lcd.bgp.shade (s.tilePixel idx.toNat (y % 8) (xx % 8))

/-- Columns 0 to `n - 1` of the current scanline written into the screen buffer, in order (R325). -/
def State.renderColumns (s : State) : Nat → List (Nat × Shade)
  | 0 => s.screen
  | n + 1 =>
    Store.put Config.screenInit (s.renderColumns n) (Config.screenWidth * s.lcd.scanline.toNat + n) (s.pixelShade n)

/-- `render_scanline()` (R325): the screen is unchanged while BGEnabled, bit 0 of LCDC, is off. -/
def State.renderScanline (s : State) : State :=
  if s.lcd.control.getLsbD 0 then { s with screen := s.renderColumns Config.visibleWidth } else s

/-- `leave_hblank()` (R322): at scanline 144 the VBlank request is latched and VBlank entered. -/
def State.leaveHblank (s : State) : State :=
  let ly := s.lcd.scanline + 1
  if ly.toNat = Config.vblankLine then
    { s with lcd := { s.lcd with scanline := ly, mode := .vblank } }.requestIrq .vblank
  else { s with lcd := { s.lcd with scanline := ly, mode := .searchingOam } }

/-- `vblank_line()` (R323): "scanline values above 153 reset to 0 and mode returns to SearchingOAM". -/
def State.vblankLine (s : State) : State :=
  let ly := s.lcd.scanline + 1
  if ly.toNat > Config.lastLine then { s with lcd := { s.lcd with scanline := 0, mode := .searchingOam } }
  else { s with lcd := { s.lcd with scanline := ly } }

/-- A mode's threshold (R320). -/
def LcdMode.threshold : LcdMode → Nat
  | .searchingOam => Config.oamCycles
  | .transferring => Config.transferCycles
  | .hblank => Config.hblankCycles
  | .vblank => Config.vblankCycles

/-- A write of the cycle counter. -/
def State.setCounter (k : Nat) (s : State) : State := { s with lcd := { s.lcd with counter := k } }

/-- What happens when the counter has reached its mode's threshold; the counter is already 0 (R320). -/
def State.modeTransition (s : State) : State :=
  match s.lcd.mode with
  | .searchingOam => { s with lcd := { s.lcd with mode := .transferring } }
  | .transferring => { s.renderScanline with lcd := { s.lcd with mode := .hblank } }
  | .hblank => s.leaveHblank
  | .vblank => s.vblankLine

/-- `tick(n)` (R320): at most one transition, the overshoot discarded.  No flag of LCDC gates it (R324). -/
def State.tick (n : Nat) (s : State) : State :=
  if s.lcd.counter + n ≥ s.lcd.mode.threshold then (s.setCounter 0).modeTransition
  else s.setCounter (s.lcd.counter + n)

/-- The output event `frame_done`: raised by the tick "that moves scanline 143 to 144" (R322, R326).  It carries no state. -/
def State.tickRaisesFrameDone (n : Nat) (s : State) : Bool :=
  decide (s.lcd.mode = .hblank) && decide (s.lcd.counter + n ≥ LcdMode.hblank.threshold) &&
    decide ((s.lcd.scanline + 1).toNat = Config.vblankLine)

end Sys2Proof.Machine
end

