-- ==== Sys2Proof/Machine/Sequencer.lean ====
section
/-! DEFINITION. The step sequencer, over the meaning of one instruction (spec 60_exceptions.md R340, R341, R345), and the fetch (30_encoding.md R90). -/

namespace Sys2Proof.Machine

/-- The instruction at PC (R90).  The bytes are read through the router, each address modulo 65536 (20_memory.md R67,
92_eei_decisions.md D37).  Three are read whatever the length: a read has no side effect (R63), so the surplus is not observable. -/
def State.fetch (s : State) : Instr :=
  decodeBytes (s.readBus s.pc) (s.readBus (s.pc + 1)) (s.readBus (s.pc + 2))

/-- The last line of the CPU phase: an EI delay sampled before the instruction elapses after it, unless the instruction
cleared it (R341, 10_state.md R21). -/
def State.promoteIme (sampled : Bool) (s : State) : State :=
  if sampled && s.imePending then { s with ime := true, imePending := false } else s

/-- What follows an instruction's effect in the same step: the EI delay, the LCD tick with the instruction's cost, the interrupt
check, in that order (R340, R341). -/
def State.finishStep (sampled : Bool) (cost : Nat) (s : State) : State :=
  ((s.promoteIme sampled).tick cost).interruptCheck

/-- `step()` (R340) over the meaning `run` of instructions.  With a latched fatal condition there is no step (R345).
A step that raises one ends there: no EI delay, no tick, no check (R340, R345). -/
def sequenceStep (run : Instr → State → Result) (s : State) : Result :=
  match s.fatal with
  | some f => .fault (.fatalLatched f)
  | none =>
    if s.halted then .next (s.finishStep s.imePending Config.haltedCycles)
    else
      match run s.fetch s with
      | .next t =>
        match t.fatal with
        | some _ => .next t
        | none => .next (t.finishStep s.imePending (cycleCost s.fetch s))
      | .fault r => .fault r
      | .refused r => .refused r

/-- Whether the step from `s` raises the output event `frame_done` (R322, R326). -/
def frameDone (run : Instr → State → Result) (s : State) : Bool :=
  match s.fatal with
  | some _ => false
  | none =>
    if s.halted then (s.promoteIme s.imePending).tickRaisesFrameDone Config.haltedCycles
    else
      match run s.fetch s with
      | .next t =>
        match t.fatal with
        | some _ => false
        | none => (t.promoteIme s.imePending).tickRaisesFrameDone (cycleCost s.fetch s)
      | .fault _ => false
      | .refused _ => false

/-- Three bytes written through the router at PC, PC+1 and PC+2: where the next fetch reads. -/
def State.putFetchBytes (s : State) (b0 b1 b2 : Byte) : State :=
  ((s.writeBus s.pc b0).writeBus (s.pc + 1) b1).writeBus (s.pc + 2) b2

end Sys2Proof.Machine
end

