-- ==== Sys2Proof/Machine/Step.lean ====
section
/-! DEFINITION. One step of the machine (spec 60_exceptions.md R340). -/

namespace Sys2Proof.Machine

/-- One step: CPU phase, LCD tick, interrupt check (R340). -/
def step (s : State) : Result := sequenceStep exec s

/-- `s` with an instruction's bytes where the next step fetches: stored through the router at PC, and the machine able to fetch
(not halted, no fatal condition latched).  Stands for the image load of 20_memory.md R57 in the host's questions.
Three bytes cannot be placed where one of them falls on STAT or LY, whose reads do not return what is stored. -/
def State.withFetchWord (s : State) (nbits w : Nat) : State :=
  let v := w % 2 ^ nbits
  { s with halted := false, fatal := none }.putFetchBytes
    (BitVec.ofNat 8 v) (BitVec.ofNat 8 (v / 256)) (BitVec.ofNat 8 (v / 65536))

end Sys2Proof.Machine
end

