-- ==== Sys2Proof/Machine/HostMoves.lean ====
section
/-! DEFINITION. What the host may do between two steps (spec 70_reset_and_hazards.md R384, 20_memory.md R57, 60_exceptions.md R352). -/

namespace Sys2Proof.Machine

/-- The four request lines the host drives (R352); source 0 has its producer inside the block. -/
inductive HostLine where
  | lcdStat | timer | serial | joypad
deriving DecidableEq, Repr

/-- The source a host line raises (R352). -/
def HostLine.source : HostLine → IrqSource
  | .lcdStat => .lcdStat
  | .timer => .timer
  | .serial => .serial
  | .joypad => .joypad

/-- `RaiseIrq(k)`, k in 1..4 (R352). -/
def State.raiseIrq (k : HostLine) (s : State) : State := s.requestIrq k.source

/-- `mem[i] <- image[i]` from address `a` on, straight into the flat array, not through the router (R57).  Bytes past 0xFFFF
have no address and are dropped. -/
def State.loadFrom (s : State) : Nat → List Byte → State
  | _, [] => s
  | a, b :: bs => if a < Config.memSize then (s.setMemAt a b).loadFrom (a + 1) bs else s

/-- `LoadImage(image)` (R57, R381). -/
def State.loadImage (image : List Byte) (s : State) : State := s.loadFrom 0 image

/-- The values `SetState` overwrites: "PC, SP, registers, flags or LCD registers" (R384).  The LCD registers are those software
can write (R330); the mode state machine is none of them. -/
structure BootValues where
  pc      : Word
  sp      : Word
  regs    : Regs
  flags   : Flags
  control : Byte
  statSel : BitVec 4
  scy     : Byte
  scx     : Byte
  lyc     : Byte
  dma     : Byte
  bgp     : Palette
  obp0    : Byte
  obp1    : Byte
  wy      : Byte
  wx      : Byte
deriving DecidableEq, Repr

/-- `SetState(...)` (R384). -/
def State.setState (v : BootValues) (s : State) : State :=
  { s with
    pc := v.pc, sp := v.sp, regs := v.regs, flags := v.flags,
    lcd := { s.lcd with
      control := v.control, statSel := v.statSel, scy := v.scy, scx := v.scx, lyc := v.lyc, dma := v.dma,
      bgp := v.bgp, obp0 := v.obp0, obp1 := v.obp1, wy := v.wy, wx := v.wx } }

/-- The host moves (R384).  `ReadScreen`, `ReadFatal` and `Stop` change nothing. -/
inductive HostMove where
  | reset
  | loadImage (image : List Byte)
  | setState (v : BootValues)
  | step
  | raiseIrq (k : HostLine)
  | readScreen
  | readFatal
  | stop
deriving DecidableEq, Repr

/-- The effect of a host move (R384). -/
def HostMove.apply : HostMove → State → Result
  | .reset, _ => .next State.reset
  | .loadImage image, s => .next (s.loadImage image)
  | .setState v, s => .next (s.setState v)
  | .step, s => Sys2Proof.Machine.step s
  | .raiseIrq k, s => .next (s.raiseIrq k)
  | .readScreen, s => .next s
  | .readFatal, s => .next s
  | .stop, s => .next s

/-- How far a session has come: the image and the boot values may be given only before the first step (R384). -/
inductive HostPhase where
  | afterReset | loaded | stepping
deriving DecidableEq, Repr

/-- The phase after a move, or none where R384 does not allow it there: `LoadImage` "after reset, before the first step" with at
most 65536 bytes (R57), `SetState` "after LoadImage, before the first step". -/
def HostPhase.after : HostPhase → HostMove → Option HostPhase
  | _, .reset => some .afterReset
  | .afterReset, .loadImage image => if image.length ≤ Config.memSize then some .loaded else none
  | .loaded, .loadImage _ => none
  | .stepping, .loadImage _ => none
  | .afterReset, .setState _ => none
  | .loaded, .setState _ => some .loaded
  | .stepping, .setState _ => none
  | _, .step => some .stepping
  | p, .raiseIrq _ => some p
  | p, .readScreen => some p
  | p, .readFatal => some p
  | p, .stop => some p

/-- A session of host moves from a state, in order (R381, R384). -/
def runSession : List HostMove → State → Result
  | [], s => .next s
  | m :: ms, s =>
    match m.apply s with
    | .next t => runSession ms t
    | .fault r => .fault r
    | .refused r => .refused r

/-- Whether every move of a session is allowed where it stands (R384). -/
def sessionAllowed : HostPhase → List HostMove → Bool
  | _, [] => true
  | p, m :: ms =>
    match p.after m with
    | some q => sessionAllowed q ms
    | none => false

/-- `ReadScreen` (R384, R326): the driven 160 x 144 region is `screen[row][col]` of rows 0..143 and columns 0..159. -/
def State.readScreen (s : State) (row col : Nat) : Shade := s.screenAt row col

/-- `ReadFatal` (R384). -/
def State.readFatal (s : State) : Option Fatal := s.fatal

end Sys2Proof.Machine
end

