-- ==== Sys2Proof/Safety.lean ====
section
/-! DEFINITION. The terms claims are stated in: the machine's invariant, what an instruction leaves unchanged, what a store leaves behind. -/

namespace Sys2Proof

open Machine

/-- The registers that make up a pair; SP is none of the seven. -/
def Pair.regs : Pair → List R8
  | .bc => [.b, .c]
  | .de => [.d, .e]
  | .hl => [.h, .l]
  | .sp => []

/-- The registers that make up a stack pair. -/
def StackPair.regs : StackPair → List R8
  | .bc => [.b, .c]
  | .de => [.d, .e]
  | .hl => [.h, .l]
  | .af => [.a]

/-- The fatal condition an instruction raises, if it raises one (60_exceptions.md R342). -/
def Instr.raises : Instr → Option Fatal
  | .stop => some (.unimplemented 0x10 .base)
  | .illegalD3 => some (.decodeFailure 0xD3 .base)
  | .illegalDB => some (.decodeFailure 0xDB .base)
  | .illegalDD => some (.decodeFailure 0xDD .base)
  | .illegalE3 => some (.decodeFailure 0xE3 .base)
  | .illegalE4 => some (.decodeFailure 0xE4 .base)
  | .illegalEB => some (.decodeFailure 0xEB .base)
  | .illegalEC => some (.decodeFailure 0xEC .base)
  | .illegalED => some (.decodeFailure 0xED .base)
  | .illegalF4 => some (.decodeFailure 0xF4 .base)
  | .illegalFC => some (.decodeFailure 0xFC .base)
  | .illegalFD => some (.decodeFailure 0xFD .base)
  | _ => none

/-- The instructions that may set PC to something else than the next address (44_control.md), the bare prefix byte and
the fatal ones apart. -/
def Instr.isTransfer : Instr → Bool
  | .jpNn _ | .jpCcNn _ _ | .jpHl | .jrE _ | .jrCcE _ _ | .callNn _ | .callCcNn _ _ | .ret | .retCc _ | .reti | .rstT _ => true
  | _ => false

/-- The instructions that write SP (10_state.md R17). -/
def Instr.writesSp : Instr → Bool
  | .ldRrNn .sp _ | .ldSpHl | .incRr .sp | .decRr .sp | .addSpE _ | .pushQq _ | .popQq _ | .callNn _ | .callCcNn _ _
  | .ret | .retCc _ | .reti | .rstT _ => true
  | _ => false

/-- The instructions of the flag tables of 42_alu8.md section 1, 43_alu16.md, 45_rotate_bit.md section 1, `LD HL,SP+e` (R153) and POP AF (R14). -/
def Instr.writesFlags : Instr → Bool
  | .addAR _ | .addAHl | .addAN _ | .adcAR _ | .adcAHl | .adcAN _ | .subR _ | .subHl | .subN _ | .sbcAR _ | .sbcAHl | .sbcAN _
  | .andR _ | .andHl | .andN _ | .xorR _ | .xorHl | .xorN _ | .orR _ | .orHl | .orN _ | .cpR _ | .cpHl | .cpN _
  | .incR _ | .incHl | .decR _ | .decHl | .daa | .cpl | .scf | .ccf | .addHlRr _ | .addSpE _ | .ldHlSpE _ | .popQq .af
  | .rlca | .rrca | .rla | .rra | .rlcR _ | .rlcHl | .rrcR _ | .rrcHl | .rlR _ | .rlHl | .rrR _ | .rrHl
  | .slaR _ | .slaHl | .sraR _ | .sraHl | .swapR _ | .swapHl | .srlR _ | .srlHl | .bitR _ _ | .bitHl _ => true
  | _ => false

namespace Machine

/-- A run is safe while no fatal condition is latched: from such a state there is a step (60_exceptions.md R345, R385). -/
def State.running (s : State) : Prop := s.fatal = none

/-- What the LCD controller keeps (10_state.md R31, 50_lcd_ppu.md R320 to R323, 70_reset_and_hazards.md R392): the counter below its
mode's threshold and a multiple of 4, "scanline always stays in 0..=153", VBlank exactly on scanlines 144..153. -/
def Lcd.inv (l : Lcd) : Prop :=
  l.counter < l.mode.threshold ∧ l.counter % 4 = 0 ∧ l.scanline.toNat ≤ Config.lastLine ∧
    (l.mode = .vblank ↔ Config.vblankLine ≤ l.scanline.toNat)

/-- The machine's invariant: canonical memory, a canonical screen buffer written in the driven region alone (R325), and the
LCD controller's own invariant. -/
structure State.Inv (s : State) : Prop where
  mem    : Memory.wf s.mem = true
  screen : Screen.wf s.screen = true
  lcd    : s.lcd.inv

/-- Every 8-bit register but those named holds what it held. -/
def SameRegs (but : List R8) (s t : State) : Prop := ∀ r, r ∉ but → t.reg r = s.reg r

/-- What an instruction leaves unchanged when it writes nothing but registers, flags, SP and PC: the CPU's control bits, the
interrupt registers, the LCD controller, the screen, and every byte of memory as a read returns it. -/
structure Untouched (s t : State) : Prop where
  ime        : t.ime = s.ime
  imePending : t.imePending = s.imePending
  halted     : t.halted = s.halted
  fatal      : t.fatal = s.fatal
  ie         : t.ie = s.ie
  ifReg      : t.ifReg = s.ifReg
  lcd        : t.lcd = s.lcd
  screen     : t.screen = s.screen
  memory     : ∀ a, t.readBus a = s.readBus a

/-- What a read returns at an address just after a store of `v` there: LY ignores the write (R332), STAT keeps bits 6..3 of it
(R331), every other address returns the byte written (R51 to R53). -/
def State.readsBack (s : State) (a : Word) (v : Byte) : Byte :=
  if a = 0xFF44 then s.readBus a
  else if a = 0xFF41 then (s.readBus a &&& 0x87) ||| (v &&& 0x78)
  else v

/-- From `s` to `t` exactly the bytes of `cells` were stored: each reads back as its store leaves it, and every other address reads
as before, the coincidence bit of STAT excepted where LYC was stored to, since it follows LYC (R331). -/
def Stores (cells : List (Word × Byte)) (s t : State) : Prop :=
  (∀ c ∈ cells, t.readBus c.1 = s.readsBack c.1 c.2) ∧
  (∀ a, a ∉ cells.map Prod.fst → (a = 0xFF41 → (0xFF45 : Word) ∉ cells.map Prod.fst) → t.readBus a = s.readBus a) ∧
  ((0xFF41 : Word) ∉ cells.map Prod.fst → t.readBus 0xFF41 &&& 0xFB = s.readBus 0xFF41 &&& 0xFB)

/-- What an instruction that stores the bytes of `cells` leaves unchanged outside registers, flags, SP and PC. -/
structure UntouchedBut (cells : List (Word × Byte)) (s t : State) : Prop where
  ime        : t.ime = s.ime
  imePending : t.imePending = s.imePending
  halted     : t.halted = s.halted
  fatal      : t.fatal = s.fatal
  mode       : t.lcd.mode = s.lcd.mode
  counter    : t.lcd.counter = s.lcd.counter
  scanline   : t.lcd.scanline = s.lcd.scanline
  screen     : t.screen = s.screen
  memory     : Stores cells s t

/-- Instruction `i` has the encoding `bytes` and the cost `cost`, and run from `s` it answers a next state with `post`. -/
def Follows (i : Instr) (bytes : List Byte) (cost : Nat) (s : State) (post : State → Prop) : Prop :=
  encode i = bytes ∧ cycleCost i s = cost ∧ ∃ t, exec i s = .next t ∧ post t

/-- The instruction of `len` bytes wrote register `r` with `v` and nothing else. -/
def WroteReg (r : R8) (v : Byte) (len : Word) (s t : State) : Prop :=
  t.reg r = v ∧ SameRegs [r] s t ∧ t.flags = s.flags ∧ t.pc = s.pc + len ∧ t.sp = s.sp ∧ Untouched s t

/-- The instruction of `len` bytes wrote register `r` with `v` and the flags with `f`, and nothing else. -/
def WroteRegFlags (r : R8) (v : Byte) (f : Flags) (len : Word) (s t : State) : Prop :=
  t.reg r = v ∧ SameRegs [r] s t ∧ t.flags = f ∧ t.pc = s.pc + len ∧ t.sp = s.sp ∧ Untouched s t

/-- The instruction of `len` bytes wrote the flags with `f` and nothing else. -/
def WroteFlags (f : Flags) (len : Word) (s t : State) : Prop :=
  SameRegs [] s t ∧ t.flags = f ∧ t.pc = s.pc + len ∧ t.sp = s.sp ∧ Untouched s t

/-- The instruction of `len` bytes stored `v` at `a`, wrote the flags with `f`, and did nothing else. -/
def WroteByte (a : Word) (v : Byte) (f : Flags) (len : Word) (s t : State) : Prop :=
  SameRegs [] s t ∧ t.flags = f ∧ t.pc = s.pc + len ∧ t.sp = s.sp ∧ UntouchedBut [(a, v)] s t

/-- The instruction left PC at `pc` and changed nothing else. -/
def WentTo (pc : Word) (s t : State) : Prop :=
  t.pc = pc ∧ SameRegs [] s t ∧ t.flags = s.flags ∧ t.sp = s.sp ∧ Untouched s t

/-- The instruction pushed `v` and left PC at `pc`, and did nothing else. -/
def PushedAndWentTo (v pc : Word) (s t : State) : Prop :=
  t.pc = pc ∧ t.sp = s.sp - 2 ∧ SameRegs [] s t ∧ t.flags = s.flags ∧
    UntouchedBut [(s.sp - 1, v.extractLsb' 8 8), (s.sp - 2, v.extractLsb' 0 8)] s t

/-- An address no handler intercepts: plain storage (20_memory.md R51 to R53). -/
def isPlain (a : Word) : Bool := a != 0xFF0F && a != 0xFFFF && !(decide (0xFF40 ≤ a) && decide (a ≤ 0xFF4B))

/-- Ticks of the LCD controller one after another, with nothing between them. -/
def State.ticks (s : State) (costs : List Nat) : State := costs.foldl (fun t n => t.tick n) s

/-- The eleven bytes of 30_encoding.md R103. -/
def unassignedBytes : List Byte := [0xD3, 0xDB, 0xDD, 0xE3, 0xE4, 0xEB, 0xEC, 0xED, 0xF4, 0xFC, 0xFD]

/-- The flags of 42_alu8.md R165 for `a + v + cin`: "half-carry = carry out of bit 3 of the low nibble sum (including any input carry for ADC);
carry = carry out of bit 7", on 5-bit and 9-bit sums. -/
def addFlags (a v : Byte) (cin : Bool) : Flags :=
  { z := a + v + (BitVec.ofBool cin).setWidth 8 == 0
    n := false
    h := ((a.extractLsb' 0 4).setWidth 5 + (v.extractLsb' 0 4).setWidth 5 + (BitVec.ofBool cin).setWidth 5).getLsbD 4
    c := (a.setWidth 9 + v.setWidth 9 + (BitVec.ofBool cin).setWidth 9).getLsbD 8 }

/-- The flags of 42_alu8.md R165 for `a - v - cin`: the borrows, on 5-bit and 9-bit differences. -/
def subFlags (a v : Byte) (cin : Bool) : Flags :=
  { z := a - v - (BitVec.ofBool cin).setWidth 8 == 0
    n := true
    h := ((a.extractLsb' 0 4).setWidth 5 - (v.extractLsb' 0 4).setWidth 5 - (BitVec.ofBool cin).setWidth 5).getLsbD 4
    c := (a.setWidth 9 - v.setWidth 9 - (BitVec.ofBool cin).setWidth 9).getLsbD 8 }

/-- The packed-BCD byte of a number below 100. -/
def bcd (x : Nat) : Byte := BitVec.ofNat 8 (16 * (x / 10) + x % 10)

/-- 30_encoding.md R95: the condition test on the flags as they are before the instruction. -/
def taken (cc : Cond) (f : Flags) : Bool :=
  match cc with
  | .nz => !f.z
  | .z => f.z
  | .nc => !f.c
  | .c => f.c

/-- The result and the new carry of the eight functions of 45_rotate_bit.md R239, with whole-byte rotates and shifts. -/
def shifted (op : ExtOp) (v : Byte) (c : Bool) : Byte × Bool :=
  match op with
  | .rlc => (v.rotateLeft 1, v.getLsbD 7)
  | .rrc => (v.rotateRight 1, v.getLsbD 0)
  | .rl => (v <<< 1 ||| (BitVec.ofBool c).setWidth 8, v.getLsbD 7)
  | .rr => (v >>> 1 ||| (BitVec.ofBool c).setWidth 8 <<< 7, v.getLsbD 0)
  | .sla => (v <<< 1, v.getLsbD 7)
  | .sra => (v.sshiftRight 1, v.getLsbD 0)
  | .swap => (v.rotateLeft 4, false)
  | .srl => (v >>> 1, v.getLsbD 0)
  | _ => (v, c)

/-- The flags of extended-table group 00 (45_rotate_bit.md section 1). -/
def shiftedFlags (op : ExtOp) (v : Byte) (c : Bool) : Flags :=
  ⟨(shifted op v c).1 == 0, false, false, (shifted op v c).2⟩

/-- Bit `b` of `v` replaced by `x`, every other bit as it is. -/
def BitReplaced (v w : Byte) (b : BitVec 3) (x : Bool) : Prop :=
  ∀ j, j < 8 → w.getLsbD j = if j = b.toNat then x else v.getLsbD j

end Machine

end Sys2Proof
end

