-- ==== Sys2Proof/Certificates/Slice0/Obligations.lean ====
section
/-! DEFINITION. The statements for the provers.  Each docstring names the rules of spec/ it formalises. -/

open Sys2Proof Sys2Proof.Machine

/-- 30_encoding.md R90 to R102: decoding the bytes of a well-formed instruction, whatever follows them, gives the instruction back. -/
def Obligations.DecodeOfEncodeIsTheInstruction : Prop :=
  ∀ (i : Instr) (rest : List Byte), i.wellFormed = true → decode (encode i ++ rest) = .ok i rest

/-- 30_encoding.md R101, R102: what decodes is well formed, and its bytes are the bytes that were decoded, so no byte sequence has two readings. -/
def Obligations.DecodedBytesEncodeBack : Prop :=
  ∀ (bs rest : List Byte) (i : Instr), decode bs = .ok i rest → i.wellFormed = true ∧ encode i ++ rest = bs

/-- 30_encoding.md R101, R102: words written out from the two tables, one or more of each family. -/
def Obligations.TableBytesDecode : Prop :=
  decode [0x78] = .ok (.ldRR .a .b) [] ∧ decode [0x36, 0x99] = .ok (.ldHlN 0x99) [] ∧
  decode [0x08, 0x00, 0xC1] = .ok (.ldNnSp 0xC100) [] ∧ decode [0xF5] = .ok (.pushQq .af) [] ∧
  decode [0x88] = .ok (.adcAR .b) [] ∧ decode [0x39] = .ok (.addHlRr .sp) [] ∧
  decode [0x20, 0xFB, 0x00] = .ok (.jrCcE .nz 0xFB) [0x00] ∧ decode [0xEF] = .ok (.rstT 5) [] ∧
  decode [0xCB, 0x37] = .ok (.swapR .a) [] ∧ decode [0xCB, 0x7C] = .ok (.bitR 7 .h) [] ∧
  decode [0xCB, 0xCB] = .ok (.setR 1 .e) [] ∧ decode [0x76] = .ok .halt [] ∧ decode [0xD3] = .ok .illegalD3 []

/-- 30_encoding.md R91: 1, 2 or 3 bytes, decided by the first byte alone, and 2 after the prefix byte. -/
def Obligations.FirstByteDecidesLength : Prop :=
  ∀ b0 b1 b2 c1 c2 : Byte,
    (decodeBytes b0 b1 b2).length = (decodeBytes b0 c1 c2).length ∧
    1 ≤ (decodeBytes b0 b1 b2).length ∧ (decodeBytes b0 b1 b2).length ≤ 3 ∧
    (b0 = 0xCB → (decodeBytes b0 b1 b2).length = 2)

/-- 30_encoding.md R103 and 46_system.md R275: fetching one of the eleven bytes raises the decode failure that reports it, with nothing
else changed, and no other first byte raises one: neither another base-table byte nor any extended-table byte. -/
def Obligations.UnassignedBytesAreDecodeFailures : Prop :=
  ∀ (b0 b1 b2 : Byte) (s : State),
    (b0 ∈ unassignedBytes → (decodeBytes b0 b1 b2).length = 1 ∧
      exec (decodeBytes b0 b1 b2) s = .next { s with fatal := some (.decodeFailure b0 .base) }) ∧
    (b0 ∉ unassignedBytes → s.fatal = none →
      ∃ t, exec (decodeBytes b0 b1 b2) s = .next t ∧ ∀ (b : Byte) (tab : OpTable), t.fatal ≠ some (.decodeFailure b tab))

/-- 30_encoding.md R90: the prefix byte selects the extended table with the byte after it, whatever that byte is, and the decoded instruction is
never the bare prefix byte.  The clauses on the row of the prefix byte itself (it runs that extended-table entry at its cost) are the model's
choice, log entry 6 (DEDUCED): R90 says that the prefix byte is not an instruction, but the opcode table has a row for it. -/
def Obligations.PrefixSelectsExtendedTable : Prop :=
  ∀ s : State,
    s.fetch ≠ .prefixByte ∧
    (s.readBus s.pc = 0xCB → s.fetch = decodeExtended (s.readBus (s.pc + 1))) ∧
    (s.readBus s.pc ≠ 0xCB → s.fetch = decodeBase (s.readBus s.pc) (s.readBus (s.pc + 1)) (s.readBus (s.pc + 2))) ∧
    exec .prefixByte s = exec (decodeExtended (s.readBus (s.pc + 1))) s ∧
    cycleCost .prefixByte s = cycleCost (decodeExtended (s.readBus (s.pc + 1))) s ∧
    ∃ t, exec .prefixByte s = .next t ∧ t.fatal = s.fatal

/-- 60_exceptions.md R340, R341: on a machine that is neither halted nor stopped by a fatal condition, where the bytes at PC decode to `i`
and `i` runs to `t` without raising one, the step is `t` followed by the end of an EI delay sampled before the
instruction, the LCD tick with the instruction's cost, and the interrupt check. -/
def Obligations.StepRunsDecodedInstruction : Prop :=
  ∀ (s t : State) (i : Instr) (rest : List Byte),
    s.fatal = none → s.halted = false →
    decode [s.readBus s.pc, s.readBus (s.pc + 1), s.readBus (s.pc + 2)] = .ok i rest →
    exec i s = .next t → t.fatal = none →
    step s = .next
      (((if s.imePending && t.imePending then { t with ime := true, imePending := false } else t).tick (cycleCost i s)).interruptCheck)

/-- 20_memory.md R50, 70_reset_and_hazards.md R385, R395: every state without a latched fatal condition has a step, and every state with one has none. -/
def Obligations.EveryRunningStateSteps : Prop :=
  ∀ s : State, (s.fatal = none → ∃ t, step s = .next t) ∧ (∀ f, s.fatal = some f → step s = .fault (.fatalLatched f))

/-- 60_exceptions.md R345: STOP and each unassigned byte run to the state that differs in `fatal` alone, the step that runs one is that state (no EI delay, no tick, no
check), and no step follows it. -/
def Obligations.FatalStepChangesOnlyFatal : Prop :=
  ∀ (i : Instr) (s : State) (f : Fatal), i.raises = some f →
    exec i s = .next { s with fatal := some f } ∧
    (s.fatal = none → s.halted = false → s.fetch = i → step s = .next { s with fatal := some f }) ∧
    ∀ t : State, t.fatal = some f → step t = .fault (.fatalLatched f)

/-- 60_exceptions.md R342: a step latches a fatal condition only by running STOP or an unassigned byte. -/
def Obligations.OnlyStopAndUnassignedBytesAreFatal : Prop :=
  ∀ s t : State, s.fatal = none → step s = .next t → t.fatal ≠ none →
    s.halted = false ∧ t.fatal = s.fetch.raises ∧
    (s.fetch = .stop ∨ ∃ b ∈ unassignedBytes, s.readBus s.pc = b ∧ t.fatal = some (.decodeFailure b .base))

/-- 60_exceptions.md R341: a halted step fetches nothing, costs 4 cycles, and still ends an EI delay, ticks the LCD and checks interrupts. -/
def Obligations.HaltedStepOnlyWaits : Prop :=
  ∀ s : State, s.fatal = none → s.halted = true →
    step s = .next (((if s.imePending then { s with ime := true, imePending := false } else s).tick 4).interruptCheck)

/-- 10_state.md R20, 60_exceptions.md R341, R353: with IME clear, a step sets it only through a RETI or the end of an EI delay. -/
def Obligations.ImeRisesOnlyByRetiOrEi : Prop :=
  ∀ s t : State, s.ime = false → step s = .next t → t.ime = true →
    s.imePending = true ∨ (s.halted = false ∧ s.fetch = .reti)

/-- 60_exceptions.md R349: after a step the machine is halted only while no enabled source is requesting. -/
def Obligations.HaltedOnlyWhileNothingPending : Prop :=
  ∀ s t : State, step s = .next t → t.halted = true → t.ie &&& t.ifReg &&& 0x1F = 0

/-- 60_exceptions.md R349, R351: no pending source, nothing happens; otherwise HALT ends, and with IME set the least k with p[k] = 1 is dispatched. -/
def Obligations.InterruptCheckTakesLowestPending : Prop :=
  ∀ s : State,
    (s.ie &&& s.ifReg &&& 0x1F = 0 → s.interruptCheck = s) ∧
    (s.ie &&& s.ifReg &&& 0x1F ≠ 0 → s.ime = false → s.interruptCheck = { s with halted := false }) ∧
    (s.ime = true → ∀ k : IrqSource, (s.ie.getLsbD k.bit && s.ifReg.getLsbD k.bit) = true →
      (∀ j, j < k.bit → (s.ie.getLsbD j && s.ifReg.getLsbD j) = false) →
      s.interruptCheck = { s with halted := false }.dispatch k)

/-- 60_exceptions.md R350, 10_state.md R18: dispatch clears the one request bit, IME and a pending EI, pushes PC with the push semantics (the push sees the
request already cleared), and goes to 0x0040 + 8k; registers, flags and the LCD's state machine are as before. -/
def Obligations.DispatchEntersHandler : Prop :=
  ∀ (k : IrqSource) (s : State),
    (s.dispatch k).pc = 0x0040 + 8 * BitVec.ofNat 16 k.bit ∧ (s.dispatch k).sp = s.sp - 2 ∧
    (s.dispatch k).regs = s.regs ∧ (s.dispatch k).flags = s.flags ∧
    UntouchedBut [(s.sp - 1, s.pc.extractLsb' 8 8), (s.sp - 2, s.pc.extractLsb' 0 8)]
      { s with ime := false, imePending := false, ifReg := s.ifReg &&& ~~~(1#8 <<< k.bit) } (s.dispatch k)

/-- 44_control.md R229, 60_exceptions.md R350, R353: RETI pops PC and sets IME at once, leaving `ime_pending`; after a dispatch whose stack bytes are
plain storage it returns to the interrupted PC with SP, registers and flags as before (source §8 item 10). -/
def Obligations.RetiUndoesDispatch : Prop :=
  ∀ (k : IrqSource) (s : State),
    Follows .reti [0xD9] 16 s (fun t => t.pc = s.readBus (s.sp + 1) ++ s.readBus s.sp ∧ t.sp = s.sp + 2 ∧ SameRegs [] s t ∧
      t.flags = s.flags ∧ t.ime = true ∧ Untouched { s with ime := true } t) ∧
    (isPlain (s.sp - 1) = true → isPlain (s.sp - 2) = true →
      ∃ t, exec .reti (s.dispatch k) = .next t ∧ t.pc = s.pc ∧ t.sp = s.sp ∧ t.regs = s.regs ∧ t.flags = s.flags ∧ t.ime = true)

/-- 70_reset_and_hazards.md R392: every cost is a multiple of 4 from 4 to 24, for every instruction that raises no fatal condition. -/
def Obligations.CostsAreMultiplesOfFour : Prop :=
  ∀ (i : Instr) (s : State), i.raises = none → cycleCost i s % 4 = 0 ∧ 4 ≤ cycleCost i s ∧ cycleCost i s ≤ 24

/-- 10_state.md R31, 50_lcd_ppu.md R320 to R325, with the canonical forms of memory and screen: every step keeps the machine's invariant, from every state that has it. -/
def Obligations.StepKeepsMachineInvariant : Prop :=
  ∀ s t : State, s.Inv → step s = .next t → t.Inv

/-- 10_state.md R40: the state after reset has the machine's invariant. -/
def Obligations.ResetHasMachineInvariant : Prop := State.reset.Inv

/-- 70_reset_and_hazards.md R384: a host request line, an image load and a `SetState` keep the machine's invariant. -/
def Obligations.HostMovesKeepMachineInvariant : Prop :=
  ∀ (s : State) (k : HostLine) (image : List Byte) (v : BootValues), s.Inv →
    (s.raiseIrq k).Inv ∧ (s.loadImage image).Inv ∧ (s.setState v).Inv

/-- 10_state.md R40: LCD mode, scanline and counter after reset are the source's; the other values are the spec's own choices D7, D8 and D9 (log entries 1 to 3):
PC 0x0000, everything else zero, so that every address reads 0x00 but STAT, which reads 0x86 (50_lcd_ppu.md R331). -/
def Obligations.ResetStateReads : Prop :=
  State.reset.lcd.mode = .searchingOam ∧ State.reset.lcd.scanline = 0 ∧ State.reset.lcd.counter = 0 ∧
  (∀ r, State.reset.reg r = 0) ∧ State.reset.flags = ⟨false, false, false, false⟩ ∧
  State.reset.pc = 0x0000 ∧ State.reset.sp = 0x0000 ∧ State.reset.ime = false ∧ State.reset.imePending = false ∧
  State.reset.halted = false ∧ State.reset.fatal = none ∧
  (∀ a, State.reset.readBus a = if a = 0xFF41 then 0x86 else 0x00) ∧ (∀ row col, State.reset.screenAt row col = 0)

/-- 10_state.md R17: no instruction writes SP but the listed ones. -/
def Obligations.OnlyStackInstructionsWriteSp : Prop :=
  ∀ (i : Instr) (s t : State), i.wellFormed = true → exec i s = .next t → t.sp ≠ s.sp → i.writesSp = true

/-- 10_state.md R15: no instruction changes a flag but those of the flag tables. -/
def Obligations.OnlyListedInstructionsWriteFlags : Prop :=
  ∀ (i : Instr) (s t : State), i.wellFormed = true → exec i s = .next t → t.flags ≠ s.flags → i.writesFlags = true

/-- 10_state.md R16: an instruction that is no transfer and raises nothing completes with PC at `a0 + len` modulo 65536. -/
def Obligations.NonTransferAdvancesByLength : Prop :=
  ∀ (i : Instr) (s : State), i.wellFormed = true → i.isTransfer = false → i.raises = none →
    ∃ t, exec i s = .next t ∧ t.pc = s.pc + BitVec.ofNat 16 i.length ∧ t.fatal = s.fatal

/-- 20_memory.md R51: the read router. -/
def Obligations.ReadRouter : Prop :=
  ∀ (s : State) (a : Word),
    (a = 0xFF0F → s.readBus a = s.ifReg) ∧ (a = 0xFFFF → s.readBus a = s.ie) ∧
    (0xFF40 ≤ a.toNat → a.toNat ≤ 0xFF4B → s.readBus a = s.lcd.read a) ∧
    (isPlain a = true → s.readBus a = s.memAt a.toNat)

/-- 20_memory.md R52, R53, R56, R63: a store at any address leaves exactly what it should: the byte reads back (LY and STAT as their rules
say), every other address reads as before, with no protection and no mirror; and no store changes the CPU's control bits or the LCD's state machine. -/
def Obligations.StoreReadsBackAndTouchesNothingElse : Prop :=
  ∀ (s : State) (a : Word) (v : Byte),
    (s.writeBus a v).regs = s.regs ∧ (s.writeBus a v).flags = s.flags ∧ (s.writeBus a v).pc = s.pc ∧ (s.writeBus a v).sp = s.sp ∧
    UntouchedBut [(a, v)] s (s.writeBus a v)

/-- 50_lcd_ppu.md R330 to R335: the register table, each row's read and write: STAT's fields, the ignored write to LY, BGP through the
palette's byte form, and plain storage for the rest, DMA among it. -/
def Obligations.LcdRegisterTable : Prop :=
  ∀ (s : State) (v : Byte),
    ((s.readBus 0xFF41).getLsbD 7 = true ∧ (s.readBus 0xFF41).extractLsb' 3 4 = s.lcd.statSel ∧
      (s.readBus 0xFF41).getLsbD 2 = decide (s.lcd.scanline = s.lcd.lyc) ∧
      (s.readBus 0xFF41).extractLsb' 0 2 =
        (match s.lcd.mode with | .hblank => 0 | .vblank => 1 | .searchingOam => 2 | .transferring => 3)) ∧
    s.writeBus 0xFF41 v = { s with lcd := { s.lcd with statSel := v.extractLsb' 3 4 } } ∧
    s.readBus 0xFF44 = s.lcd.scanline ∧ s.writeBus 0xFF44 v = s ∧
    (∀ i : Fin 4, (s.readBus 0xFF47).extractLsb' (2 * i) 2 = s.lcd.bgp.shade (BitVec.ofNat 2 i)) ∧ (s.writeBus 0xFF47 v).readBus 0xFF47 = v ∧
    (∀ i : Fin 4, (s.writeBus 0xFF47 v).lcd.bgp.shade (BitVec.ofNat 2 i) = v.extractLsb' (2 * i) 2) ∧
    { s.writeBus 0xFF47 v with lcd := { (s.writeBus 0xFF47 v).lcd with bgp := s.lcd.bgp } } = s ∧
    (s.readBus 0xFF40 = s.lcd.control ∧ s.writeBus 0xFF40 v = { s with lcd := { s.lcd with control := v } }) ∧
    (s.readBus 0xFF42 = s.lcd.scy ∧ s.writeBus 0xFF42 v = { s with lcd := { s.lcd with scy := v } }) ∧
    (s.readBus 0xFF43 = s.lcd.scx ∧ s.writeBus 0xFF43 v = { s with lcd := { s.lcd with scx := v } }) ∧
    (s.readBus 0xFF45 = s.lcd.lyc ∧ s.writeBus 0xFF45 v = { s with lcd := { s.lcd with lyc := v } }) ∧
    (s.readBus 0xFF46 = s.lcd.dma ∧ s.writeBus 0xFF46 v = { s with lcd := { s.lcd with dma := v } }) ∧
    (s.readBus 0xFF48 = s.lcd.obp0 ∧ s.writeBus 0xFF48 v = { s with lcd := { s.lcd with obp0 := v } }) ∧
    (s.readBus 0xFF49 = s.lcd.obp1 ∧ s.writeBus 0xFF49 v = { s with lcd := { s.lcd with obp1 := v } }) ∧
    (s.readBus 0xFF4A = s.lcd.wy ∧ s.writeBus 0xFF4A v = { s with lcd := { s.lcd with wy := v } }) ∧
    (s.readBus 0xFF4B = s.lcd.wx ∧ s.writeBus 0xFF4B v = { s with lcd := { s.lcd with wx := v } })

/-- 10_state.md R18, R19: push writes the high byte at SP-1 and the low byte at SP-2 and lowers SP by 2; a pop of plain storage is its exact inverse. -/
def Obligations.PushThenPopRestores : Prop :=
  ∀ (s : State) (v : Word),
    ((s.push16 v).sp = s.sp - 2 ∧
      UntouchedBut [(s.sp - 1, v.extractLsb' 8 8), (s.sp - 2, v.extractLsb' 0 8)] s (s.push16 v)) ∧
    (s.popValue = s.readBus (s.sp + 1) ++ s.readBus s.sp ∧ s.popSp = { s with sp := s.sp + 2 }) ∧
    (isPlain (s.sp - 1) = true → isPlain (s.sp - 2) = true →
      (s.push16 v).popValue = v ∧ (s.push16 v).popSp.sp = s.sp)

/-- 10_state.md R12, R13, R14: AF reads as A and F = (Z, N, H, C, 0, 0, 0, 0); writing AF and reading it back keeps A and the four flags and
zeroes the low nibble of F, for every byte. -/
def Obligations.AfKeepsFlagsAndZeroesLowNibble : Prop :=
  ∀ (s : State) (v : Word),
    s.af = s.regs.a ++ (BitVec.ofBool s.flags.z ++ BitVec.ofBool s.flags.n ++ BitVec.ofBool s.flags.h ++ BitVec.ofBool s.flags.c ++ 0#4) ∧
    (s.setAf v).regs.a = v.extractLsb' 8 8 ∧
    (s.setAf v).flags = ⟨v.getLsbD 7, v.getLsbD 6, v.getLsbD 5, v.getLsbD 4⟩ ∧
    (s.setAf v).af = v &&& 0xFFF0 ∧ s.af &&& 0x000F = 0 ∧ (s.setAf s.af).af = s.af ∧ (s.setAf s.af).flags = s.flags

/-- 50_lcd_ppu.md R310: `to_byte(from_byte(b)) = b`, and pixel value i takes bits 2i+1..2i. -/
def Obligations.PaletteByteRoundTrip : Prop :=
  ∀ (b : Byte) (p : Palette), (Palette.fromByte b).toByte = b ∧ Palette.fromByte p.toByte = p ∧
    ∀ i : Fin 4, (Palette.fromByte b).shade (BitVec.ofNat 2 i) = b.extractLsb' (2 * i) 2

/-- 20_memory.md R57: an image of at most 65536 bytes lands in the flat array from address 0x0000 and changes nothing else. -/
def Obligations.ImageLoadsAtZero : Prop :=
  ∀ (s : State) (image : List Byte), image.length ≤ 65536 →
    (∀ i : Nat, (s.loadImage image).memAt i = if h : i < image.length then image[i] else s.memAt i) ∧
    { s.loadImage image with mem := s.mem } = s

/-- 60_exceptions.md R352: a host line latches its request bit, and again changes nothing more. -/
def Obligations.HostLineLatchesRequest : Prop :=
  ∀ (s : State) (k : HostLine),
    s.raiseIrq k = { s with ifReg := s.ifReg ||| (match k with | .lcdStat => 0x02 | .timer => 0x04 | .serial => 0x08 | .joypad => 0x10) } ∧
    (s.raiseIrq k).raiseIrq k = s.raiseIrq k

/-- 40_load8.md R120, R121, R122. -/
def Obligations.RegisterLoads : Prop :=
  ∀ (s : State) (dst src : R8) (n : Byte),
    Follows (.ldRR dst src) [0b01#2 ++ dst.code ++ src.code] 4 s (WroteReg dst (s.reg src) 1 s) ∧
    Follows (.ldRN dst n) [0b00#2 ++ dst.code ++ 0b110#3, n] 8 s (WroteReg dst n 2 s) ∧
    Follows (.ldRHl dst) [0b01#2 ++ dst.code ++ 0b110#3] 8 s (WroteReg dst (s.readBus (s.regs.h ++ s.regs.l)) 1 s)

/-- 40_load8.md R125, R126, R129, R131, R133. -/
def Obligations.AccumulatorLoads : Prop :=
  ∀ (s : State) (n lo hi : Byte),
    Follows .ldABc [0x0A] 8 s (WroteReg .a (s.readBus (s.regs.b ++ s.regs.c)) 1 s) ∧
    Follows .ldADe [0x1A] 8 s (WroteReg .a (s.readBus (s.regs.d ++ s.regs.e)) 1 s) ∧
    Follows (.ldANn (hi ++ lo)) [0xFA, lo, hi] 16 s (WroteReg .a (s.readBus (hi ++ lo)) 3 s) ∧
    Follows .ldhAC [0xF2] 8 s (WroteReg .a (s.readBus (0xFF#8 ++ s.regs.c)) 1 s) ∧
    Follows (.ldhAN n) [0xF0, n] 12 s (WroteReg .a (s.readBus (0xFF#8 ++ n)) 2 s)

/-- 40_load8.md R135, R136, R137, R138: the access uses the old HL, and HL moves by one modulo 65536 afterwards. -/
def Obligations.HlIncrementAndDecrementForms : Prop :=
  ∀ s : State,
    Follows .ldAHlDec [0x3A] 8 s (fun t => t.regs.a = s.readBus s.hl ∧ t.hl = s.hl - 1 ∧ SameRegs [.a, .h, .l] s t ∧
      t.flags = s.flags ∧ t.pc = s.pc + 1 ∧ t.sp = s.sp ∧ Untouched s t) ∧
    Follows .ldAHlInc [0x2A] 8 s (fun t => t.regs.a = s.readBus s.hl ∧ t.hl = s.hl + 1 ∧ SameRegs [.a, .h, .l] s t ∧
      t.flags = s.flags ∧ t.pc = s.pc + 1 ∧ t.sp = s.sp ∧ Untouched s t) ∧
    Follows .ldHlDecA [0x32] 8 s (fun t => t.hl = s.hl - 1 ∧ SameRegs [.h, .l] s t ∧
      t.flags = s.flags ∧ t.pc = s.pc + 1 ∧ t.sp = s.sp ∧ UntouchedBut [(s.hl, s.regs.a)] s t) ∧
    Follows .ldHlIncA [0x22] 8 s (fun t => t.hl = s.hl + 1 ∧ SameRegs [.h, .l] s t ∧
      t.flags = s.flags ∧ t.pc = s.pc + 1 ∧ t.sp = s.sp ∧ UntouchedBut [(s.hl, s.regs.a)] s t)

/-- 40_load8.md R123, R124, R127, R128, R130, R132, R134. -/
def Obligations.ByteStores : Prop :=
  ∀ (s : State) (src : R8) (n lo hi : Byte),
    Follows (.ldHlR src) [0b01110#5 ++ src.code] 8 s (WroteByte (s.regs.h ++ s.regs.l) (s.reg src) s.flags 1 s) ∧
    Follows (.ldHlN n) [0x36, n] 12 s (WroteByte (s.regs.h ++ s.regs.l) n s.flags 2 s) ∧
    Follows .ldBcA [0x02] 8 s (WroteByte (s.regs.b ++ s.regs.c) s.regs.a s.flags 1 s) ∧
    Follows .ldDeA [0x12] 8 s (WroteByte (s.regs.d ++ s.regs.e) s.regs.a s.flags 1 s) ∧
    Follows (.ldNnA (hi ++ lo)) [0xEA, lo, hi] 16 s (WroteByte (hi ++ lo) s.regs.a s.flags 3 s) ∧
    Follows .ldhCA [0xE2] 8 s (WroteByte (0xFF#8 ++ s.regs.c) s.regs.a s.flags 1 s) ∧
    Follows (.ldhNA n) [0xE0, n] 12 s (WroteByte (0xFF#8 ++ n) s.regs.a s.flags 2 s)

/-- 41_load16_stack.md R150, R151, R152. -/
def Obligations.PairAndStackPointerLoads : Prop :=
  ∀ (s : State) (p : Pair) (lo hi : Byte),
    Follows (.ldRrNn p (hi ++ lo)) [0b00#2 ++ p.code ++ 0b0001#4, lo, hi] 12 s (fun t => t.pair p = hi ++ lo ∧ SameRegs p.regs s t ∧
      (p ≠ .sp → t.sp = s.sp) ∧ t.flags = s.flags ∧ t.pc = s.pc + 3 ∧ Untouched s t) ∧
    Follows (.ldNnSp (hi ++ lo)) [0x08, lo, hi] 20 s (fun t => SameRegs [] s t ∧ t.flags = s.flags ∧ t.pc = s.pc + 3 ∧ t.sp = s.sp ∧
      UntouchedBut [(hi ++ lo, s.sp.extractLsb' 0 8), ((hi ++ lo : Word) + 1, s.sp.extractLsb' 8 8)] s t) ∧
    Follows .ldSpHl [0xF9] 8 s (fun t => t.sp = s.regs.h ++ s.regs.l ∧ SameRegs [] s t ∧ t.flags = s.flags ∧ t.pc = s.pc + 1 ∧
      Untouched s t)

/-- 41_load16_stack.md R153 and 43_alu16.md R213: H and C are the carries out of bits 3 and 7 of the unsigned addition of the low byte of SP and the
displacement byte, also when it is negative. -/
def Obligations.SignedDisplacementFromSp : Prop :=
  ∀ (s : State) (e : Byte),
    let sum : Word := BitVec.ofInt 16 (s.sp.toNat + e.toInt)
    let f : Flags := ⟨false, false, decide (s.sp.toNat % 16 + e.toNat % 16 > 0xF), decide (s.sp.toNat % 256 + e.toNat > 0xFF)⟩
    Follows (.ldHlSpE e) [0xF8, e] 12 s (fun t => t.hl = sum ∧ SameRegs [.h, .l] s t ∧ t.flags = f ∧ t.pc = s.pc + 2 ∧ t.sp = s.sp ∧
      Untouched s t) ∧
    Follows (.addSpE e) [0xE8, e] 16 s (fun t => t.sp = sum ∧ SameRegs [] s t ∧ t.flags = f ∧ t.pc = s.pc + 2 ∧ Untouched s t)

/-- 41_load16_stack.md R154, R155: PUSH AF pushes F with its low nibble 0, POP AF keeps bits 7..4 of the popped low byte as the flags. -/
def Obligations.PushAndPop : Prop :=
  ∀ (s : State) (q : StackPair),
    Follows (.pushQq q) [0b11#2 ++ q.code ++ 0b0101#4] 16 s (fun t => t.pc = s.pc + 1 ∧ t.sp = s.sp - 2 ∧ SameRegs [] s t ∧ t.flags = s.flags ∧
      UntouchedBut [(s.sp - 1, (s.stackPair q).extractLsb' 8 8), (s.sp - 2, (s.stackPair q).extractLsb' 0 8)] s t) ∧
    Follows (.popQq q) [0b11#2 ++ q.code ++ 0b0001#4] 12 s (fun t => t.pc = s.pc + 1 ∧ t.sp = s.sp + 2 ∧ SameRegs q.regs s t ∧
      (q ≠ .af → t.flags = s.flags ∧ t.stackPair q = s.readBus (s.sp + 1) ++ s.readBus s.sp) ∧
      (q = .af → t.regs.a = s.readBus (s.sp + 1) ∧ t.flags = ⟨(s.readBus s.sp).getLsbD 7, (s.readBus s.sp).getLsbD 6,
        (s.readBus s.sp).getLsbD 5, (s.readBus s.sp).getLsbD 4⟩) ∧ Untouched s t)

/-- 42_alu8.md R166 to R171, with the helper of R165. -/
def Obligations.AddAndAddWithCarry : Prop :=
  ∀ (s : State) (r : R8) (n : Byte),
    Follows (.addAR r) [0b10000#5 ++ r.code] 4 s (WroteRegFlags .a (s.regs.a + s.reg r) (addFlags s.regs.a (s.reg r) false) 1 s) ∧
    Follows .addAHl [0x86] 8 s (WroteRegFlags .a (s.regs.a + s.readBus s.hl) (addFlags s.regs.a (s.readBus s.hl) false) 1 s) ∧
    Follows (.addAN n) [0xC6, n] 8 s (WroteRegFlags .a (s.regs.a + n) (addFlags s.regs.a n false) 2 s) ∧
    Follows (.adcAR r) [0b10001#5 ++ r.code] 4 s
      (WroteRegFlags .a (s.regs.a + s.reg r + (BitVec.ofBool s.flags.c).setWidth 8) (addFlags s.regs.a (s.reg r) s.flags.c) 1 s) ∧
    Follows .adcAHl [0x8E] 8 s
      (WroteRegFlags .a (s.regs.a + s.readBus s.hl + (BitVec.ofBool s.flags.c).setWidth 8) (addFlags s.regs.a (s.readBus s.hl) s.flags.c) 1 s) ∧
    Follows (.adcAN n) [0xCE, n] 8 s
      (WroteRegFlags .a (s.regs.a + n + (BitVec.ofBool s.flags.c).setWidth 8) (addFlags s.regs.a n s.flags.c) 2 s)

/-- 42_alu8.md R172 to R177, with the helper of R165. -/
def Obligations.SubtractAndSubtractWithCarry : Prop :=
  ∀ (s : State) (r : R8) (n : Byte),
    Follows (.subR r) [0b10010#5 ++ r.code] 4 s (WroteRegFlags .a (s.regs.a - s.reg r) (subFlags s.regs.a (s.reg r) false) 1 s) ∧
    Follows .subHl [0x96] 8 s (WroteRegFlags .a (s.regs.a - s.readBus s.hl) (subFlags s.regs.a (s.readBus s.hl) false) 1 s) ∧
    Follows (.subN n) [0xD6, n] 8 s (WroteRegFlags .a (s.regs.a - n) (subFlags s.regs.a n false) 2 s) ∧
    Follows (.sbcAR r) [0b10011#5 ++ r.code] 4 s
      (WroteRegFlags .a (s.regs.a - s.reg r - (BitVec.ofBool s.flags.c).setWidth 8) (subFlags s.regs.a (s.reg r) s.flags.c) 1 s) ∧
    Follows .sbcAHl [0x9E] 8 s
      (WroteRegFlags .a (s.regs.a - s.readBus s.hl - (BitVec.ofBool s.flags.c).setWidth 8) (subFlags s.regs.a (s.readBus s.hl) s.flags.c) 1 s) ∧
    Follows (.sbcAN n) [0xDE, n] 8 s
      (WroteRegFlags .a (s.regs.a - n - (BitVec.ofBool s.flags.c).setWidth 8) (subFlags s.regs.a n s.flags.c) 2 s)

/-- 42_alu8.md R178 to R186: Z from the result, N and C clear, H set by AND alone. -/
def Obligations.AndXorOr : Prop :=
  ∀ (s : State) (r : R8) (n : Byte),
    Follows (.andR r) [0b10100#5 ++ r.code] 4 s (WroteRegFlags .a (s.regs.a &&& s.reg r) ⟨s.regs.a &&& s.reg r == 0, false, true, false⟩ 1 s) ∧
    Follows .andHl [0xA6] 8 s (WroteRegFlags .a (s.regs.a &&& s.readBus s.hl) ⟨s.regs.a &&& s.readBus s.hl == 0, false, true, false⟩ 1 s) ∧
    Follows (.andN n) [0xE6, n] 8 s (WroteRegFlags .a (s.regs.a &&& n) ⟨s.regs.a &&& n == 0, false, true, false⟩ 2 s) ∧
    Follows (.xorR r) [0b10101#5 ++ r.code] 4 s (WroteRegFlags .a (s.regs.a ^^^ s.reg r) ⟨s.regs.a ^^^ s.reg r == 0, false, false, false⟩ 1 s) ∧
    Follows .xorHl [0xAE] 8 s (WroteRegFlags .a (s.regs.a ^^^ s.readBus s.hl) ⟨s.regs.a ^^^ s.readBus s.hl == 0, false, false, false⟩ 1 s) ∧
    Follows (.xorN n) [0xEE, n] 8 s (WroteRegFlags .a (s.regs.a ^^^ n) ⟨s.regs.a ^^^ n == 0, false, false, false⟩ 2 s) ∧
    Follows (.orR r) [0b10110#5 ++ r.code] 4 s (WroteRegFlags .a (s.regs.a ||| s.reg r) ⟨s.regs.a ||| s.reg r == 0, false, false, false⟩ 1 s) ∧
    Follows .orHl [0xB6] 8 s (WroteRegFlags .a (s.regs.a ||| s.readBus s.hl) ⟨s.regs.a ||| s.readBus s.hl == 0, false, false, false⟩ 1 s) ∧
    Follows (.orN n) [0xF6, n] 8 s (WroteRegFlags .a (s.regs.a ||| n) ⟨s.regs.a ||| n == 0, false, false, false⟩ 2 s)

/-- 42_alu8.md R187, R188, R189: the flags of the subtraction, "A is not written". -/
def Obligations.CompareWritesFlagsOnly : Prop :=
  ∀ (s : State) (r : R8) (n : Byte),
    Follows (.cpR r) [0b10111#5 ++ r.code] 4 s (WroteFlags (subFlags s.regs.a (s.reg r) false) 1 s) ∧
    Follows .cpHl [0xBE] 8 s (WroteFlags (subFlags s.regs.a (s.readBus s.hl) false) 1 s) ∧
    Follows (.cpN n) [0xFE, n] 8 s (WroteFlags (subFlags s.regs.a n false) 2 s)

/-- 42_alu8.md R190 to R193: Z, N and H written, C unchanged; the (HL) forms read once and write the same address once. -/
def Obligations.IncrementAndDecrement : Prop :=
  ∀ (s : State) (r : R8),
    let inc (v : Byte) : Flags := ⟨v == 0xFF, false, v.extractLsb' 0 4 == 0xF, s.flags.c⟩
    let dec (v : Byte) : Flags := ⟨v == 0x01, true, v.extractLsb' 0 4 == 0x0, s.flags.c⟩
    Follows (.incR r) [0b00#2 ++ r.code ++ 0b100#3] 4 s (WroteRegFlags r (s.reg r + 1) (inc (s.reg r)) 1 s) ∧
    Follows .incHl [0x34] 12 s (WroteByte s.hl (s.readBus s.hl + 1) (inc (s.readBus s.hl)) 1 s) ∧
    Follows (.decR r) [0b00#2 ++ r.code ++ 0b101#3] 4 s (WroteRegFlags r (s.reg r - 1) (dec (s.reg r)) 1 s) ∧
    Follows .decHl [0x35] 12 s (WroteByte s.hl (s.readBus s.hl - 1) (dec (s.readBus s.hl)) 1 s)

/-- 42_alu8.md R194 to R197.  DAA adds or subtracts a correction: 0x60 where the upper test holds, 0x06 where the lower one does;
after an addition the tests also look at the value, the lower one at the low nibble of A. -/
def Obligations.DaaAndFlagInstructions : Prop :=
  ∀ s : State,
    let a := s.regs.a
    let upper := s.flags.c || (!s.flags.n && decide (a.toNat > 0x99))
    let lower := s.flags.h || (!s.flags.n && decide (a.toNat % 16 > 9))
    let k : Byte := (if upper then 0x60 else 0) + (if lower then 0x06 else 0)
    let res := if s.flags.n then a - k else a + k
    Follows .daa [0x27] 4 s (WroteRegFlags .a res ⟨res == 0, s.flags.n, false, upper⟩ 1 s) ∧
    Follows .cpl [0x2F] 4 s (WroteRegFlags .a (~~~a) ⟨s.flags.z, true, true, s.flags.c⟩ 1 s) ∧
    Follows .scf [0x37] 4 s (WroteFlags ⟨s.flags.z, false, false, true⟩ 1 s) ∧
    Follows .ccf [0x3F] 4 s (WroteFlags ⟨s.flags.z, false, false, !s.flags.c⟩ 1 s)

/-- The law of 95_test_vectors.md section 2.4, derived there from 42_alu8.md R165 and R194: on packed-BCD operands ADD then DAA leaves the decimal sum with the
decimal carry, SUB then DAA the decimal difference with the decimal borrow. -/
def Obligations.DaaMakesBcdArithmetic : Prop :=
  ∀ (x y : Nat) (s : State), x < 100 → y < 100 → s.regs.a = bcd x → s.regs.b = bcd y →
    (∃ t u, exec (.addAR .b) s = .next t ∧ exec .daa t = .next u ∧ u.regs.a = bcd ((x + y) % 100) ∧ u.flags.c = decide (x + y > 99)) ∧
    (∃ t u, exec (.subR .b) s = .next t ∧ exec .daa t = .next u ∧ u.regs.a = bcd ((x + 100 - y) % 100) ∧ u.flags.c = decide (x < y))

/-- 43_alu16.md R210, R211, R212: ADD HL leaves Z, H is the carry out of bit 11 and C out of bit 15; INC rr and DEC rr change no flag. -/
def Obligations.PairArithmetic : Prop :=
  ∀ (s : State) (p : Pair),
    Follows (.addHlRr p) [0b00#2 ++ p.code ++ 0b1001#4] 8 s (fun t => t.hl = s.hl + s.pair p ∧ SameRegs [.h, .l] s t ∧
      t.flags = ⟨s.flags.z, false, ((s.hl.extractLsb' 0 12).setWidth 13 + ((s.pair p).extractLsb' 0 12).setWidth 13).getLsbD 12,
        (s.hl.setWidth 17 + (s.pair p).setWidth 17).getLsbD 16⟩ ∧ t.pc = s.pc + 1 ∧ t.sp = s.sp ∧ Untouched s t) ∧
    Follows (.incRr p) [0b00#2 ++ p.code ++ 0b0011#4] 8 s (fun t => t.pair p = s.pair p + 1 ∧ SameRegs p.regs s t ∧ (p ≠ .sp → t.sp = s.sp) ∧
      t.flags = s.flags ∧ t.pc = s.pc + 1 ∧ Untouched s t) ∧
    Follows (.decRr p) [0b00#2 ++ p.code ++ 0b1011#4] 8 s (fun t => t.pair p = s.pair p - 1 ∧ SameRegs p.regs s t ∧ (p ≠ .sp → t.sp = s.sp) ∧
      t.flags = s.flags ∧ t.pc = s.pc + 1 ∧ Untouched s t)

/-- 44_control.md R220 to R224, with the costs taken and not taken. -/
def Obligations.Jumps : Prop :=
  ∀ (s : State) (cc : Cond) (e lo hi : Byte),
    let rel : Word := BitVec.ofInt 16 (s.pc.toNat + 2 + e.toInt)
    Follows (.jpNn (hi ++ lo)) [0xC3, lo, hi] 16 s (WentTo (hi ++ lo) s) ∧
    Follows (.jpCcNn cc (hi ++ lo)) [0b110#3 ++ cc.code ++ 0b010#3, lo, hi] (if taken cc s.flags then 16 else 12) s
      (WentTo (if taken cc s.flags then hi ++ lo else s.pc + 3) s) ∧
    Follows .jpHl [0xE9] 4 s (WentTo (s.regs.h ++ s.regs.l) s) ∧
    Follows (.jrE e) [0x18, e] 12 s (WentTo rel s) ∧
    Follows (.jrCcE cc e) [0b001#3 ++ cc.code ++ 0b000#3, e] (if taken cc s.flags then 12 else 8) s
      (WentTo (if taken cc s.flags then rel else s.pc + 2) s)

/-- 44_control.md R225, R226, R230: the return address is pushed; an untaken CALL leaves SP and memory untouched. -/
def Obligations.CallsPushReturnAddress : Prop :=
  ∀ (s : State) (cc : Cond) (t3 : BitVec 3) (lo hi : Byte),
    Follows (.callNn (hi ++ lo)) [0xCD, lo, hi] 24 s (PushedAndWentTo (s.pc + 3) (hi ++ lo) s) ∧
    (taken cc s.flags = true → Follows (.callCcNn cc (hi ++ lo)) [0b110#3 ++ cc.code ++ 0b100#3, lo, hi] 24 s
      (PushedAndWentTo (s.pc + 3) (hi ++ lo) s)) ∧
    (taken cc s.flags = false → Follows (.callCcNn cc (hi ++ lo)) [0b110#3 ++ cc.code ++ 0b100#3, lo, hi] 12 s (WentTo (s.pc + 3) s)) ∧
    Follows (.rstT t3) [0b11#2 ++ t3 ++ 0b111#3] 16 s (PushedAndWentTo (s.pc + 1) (BitVec.ofNat 16 (8 * t3.toNat)) s)

/-- 44_control.md R227, R228: a return jumps to "whatever two bytes lie at SP"; an untaken one leaves SP. -/
def Obligations.ReturnsPopPc : Prop :=
  ∀ (s : State) (cc : Cond),
    let popped (t : State) : Prop := t.pc = s.readBus (s.sp + 1) ++ s.readBus s.sp ∧ t.sp = s.sp + 2 ∧ SameRegs [] s t ∧ t.flags = s.flags
    Follows .ret [0xC9] 16 s (fun t => popped t ∧ Untouched s t) ∧
    (taken cc s.flags = true → Follows (.retCc cc) [0b110#3 ++ cc.code ++ 0b000#3] 20 s (fun t => popped t ∧ Untouched s t)) ∧
    (taken cc s.flags = false → Follows (.retCc cc) [0b110#3 ++ cc.code ++ 0b000#3] 8 s (WentTo (s.pc + 1) s))

/-- 45_rotate_bit.md R240 to R243: Z is always cleared. -/
def Obligations.AccumulatorRotatesClearZ : Prop :=
  ∀ s : State,
    let a := s.regs.a
    let c : Byte := (BitVec.ofBool s.flags.c).setWidth 8
    Follows .rlca [0x07] 4 s (WroteRegFlags .a (a.rotateLeft 1) ⟨false, false, false, a.getLsbD 7⟩ 1 s) ∧
    Follows .rrca [0x0F] 4 s (WroteRegFlags .a (a.rotateRight 1) ⟨false, false, false, a.getLsbD 0⟩ 1 s) ∧
    Follows .rla [0x17] 4 s (WroteRegFlags .a (a <<< 1 ||| c) ⟨false, false, false, a.getLsbD 7⟩ 1 s) ∧
    Follows .rra [0x1F] 4 s (WroteRegFlags .a (a >>> 1 ||| c <<< 7) ⟨false, false, false, a.getLsbD 0⟩ 1 s)

/-- 45_rotate_bit.md R244, R246, R248, R250, R252, R254, R256, R258, with the functions of R239. -/
def Obligations.ShiftsOfRegisters : Prop :=
  ∀ (s : State) (r : R8),
    let post (op : ExtOp) : State → Prop := WroteRegFlags r (shifted op (s.reg r) s.flags.c).1 (shiftedFlags op (s.reg r) s.flags.c) 2 s
    Follows (.rlcR r) [0xCB, 0b00000#5 ++ r.code] 8 s (post .rlc) ∧ Follows (.rrcR r) [0xCB, 0b00001#5 ++ r.code] 8 s (post .rrc) ∧
    Follows (.rlR r) [0xCB, 0b00010#5 ++ r.code] 8 s (post .rl) ∧ Follows (.rrR r) [0xCB, 0b00011#5 ++ r.code] 8 s (post .rr) ∧
    Follows (.slaR r) [0xCB, 0b00100#5 ++ r.code] 8 s (post .sla) ∧ Follows (.sraR r) [0xCB, 0b00101#5 ++ r.code] 8 s (post .sra) ∧
    Follows (.swapR r) [0xCB, 0b00110#5 ++ r.code] 8 s (post .swap) ∧ Follows (.srlR r) [0xCB, 0b00111#5 ++ r.code] 8 s (post .srl)

/-- 45_rotate_bit.md R245, R247, R249, R251, R253, R255, R257, R259: one read then one write of the same address, the flags from the value read and the
result computed, whatever the address stores. -/
def Obligations.ShiftsOfMemory : Prop :=
  ∀ s : State,
    let v := s.readBus s.hl
    let post (op : ExtOp) : State → Prop := WroteByte s.hl (shifted op v s.flags.c).1 (shiftedFlags op v s.flags.c) 2 s
    Follows .rlcHl [0xCB, 0x06] 16 s (post .rlc) ∧ Follows .rrcHl [0xCB, 0x0E] 16 s (post .rrc) ∧
    Follows .rlHl [0xCB, 0x16] 16 s (post .rl) ∧ Follows .rrHl [0xCB, 0x1E] 16 s (post .rr) ∧
    Follows .slaHl [0xCB, 0x26] 16 s (post .sla) ∧ Follows .sraHl [0xCB, 0x2E] 16 s (post .sra) ∧
    Follows .swapHl [0xCB, 0x36] 16 s (post .swap) ∧ Follows .srlHl [0xCB, 0x3E] 16 s (post .srl)

/-- 45_rotate_bit.md R260 to R265: BIT writes Z, N and H alone; RES and SET replace one bit and write no flag. -/
def Obligations.BitTestResetSet : Prop :=
  ∀ (s : State) (b : BitVec 3) (r : R8),
    let f (v : Byte) : Flags := ⟨!v.getLsbD b.toNat, false, true, s.flags.c⟩
    Follows (.bitR b r) [0xCB, 0b01#2 ++ b ++ r.code] 8 s (WroteFlags (f (s.reg r)) 2 s) ∧
    Follows (.bitHl b) [0xCB, 0b01#2 ++ b ++ 0b110#3] 12 s (WroteFlags (f (s.readBus s.hl)) 2 s) ∧
    (∃ w, BitReplaced (s.reg r) w b false ∧ Follows (.resR b r) [0xCB, 0b10#2 ++ b ++ r.code] 8 s (WroteReg r w 2 s)) ∧
    (∃ w, BitReplaced (s.readBus s.hl) w b false ∧
      Follows (.resHl b) [0xCB, 0b10#2 ++ b ++ 0b110#3] 16 s (WroteByte s.hl w s.flags 2 s)) ∧
    (∃ w, BitReplaced (s.reg r) w b true ∧ Follows (.setR b r) [0xCB, 0b11#2 ++ b ++ r.code] 8 s (WroteReg r w 2 s)) ∧
    (∃ w, BitReplaced (s.readBus s.hl) w b true ∧
      Follows (.setHl b) [0xCB, 0b11#2 ++ b ++ 0b110#3] 16 s (WroteByte s.hl w s.flags 2 s))

/-- 46_system.md R270 to R274, the instruction's own step of each: NOP, HALT, STOP, DI, EI. -/
def Obligations.SystemInstructions : Prop :=
  ∀ s : State,
    Follows .nop [0x00] 4 s (WentTo (s.pc + 1) s) ∧
    Follows .halt [0x76] 4 s (fun t => t = { s with halted := true, pc := s.pc + 1 }) ∧
    Follows .di [0xF3] 4 s (fun t => t = { s with ime := false, imePending := false, pc := s.pc + 1 }) ∧
    Follows .ei [0xFB] 4 s (fun t => t = { s with imePending := true, pc := s.pc + 1 }) ∧
    encode .stop = [0x10] ∧ exec .stop s = .next { s with fatal := some (.unimplemented 0x10 .base) }

/-- 46_system.md R273, R274: whatever is pending, EI followed by DI leaves interrupts disabled and dispatches nothing: after the two steps IME and the delay are clear
and PC is past both, when IME and the delay were clear before. -/
def Obligations.EiThenDiNeverEnables : Prop :=
  ∀ s t u : State, s.fatal = none → s.halted = false → s.ime = false → s.imePending = false → s.fetch = .ei → step s = .next t → t.fetch = .di → step t = .next u →
    u.ime = false ∧ u.imePending = false ∧ u.pc = s.pc + 2 ∧ u.sp = s.sp

/-- 50_lcd_ppu.md R320, R322, R323: the tick's four transitions at thresholds 80, 172, 204 and 456, the counter set to 0, and below its threshold the counter alone moves. -/
def Obligations.TickAdvancesModes : Prop :=
  ∀ (s : State) (n : Nat),
    let c := s.lcd.counter + n
    let ly := s.lcd.scanline + 1
    (∀ m thr, (m, thr) ∈ [(LcdMode.searchingOam, 80), (.transferring, 172), (.hblank, 204), (.vblank, 456)] → s.lcd.mode = m → c < thr →
      s.tick n = { s with lcd := { s.lcd with counter := c } }) ∧
    (s.lcd.mode = .searchingOam → 80 ≤ c → s.tick n = { s with lcd := { s.lcd with counter := 0, mode := .transferring } }) ∧
    (s.lcd.mode = .transferring → 172 ≤ c →
      s.tick n = { s with lcd := { s.lcd with counter := 0, mode := .hblank }, screen := s.renderScanline.screen }) ∧
    (s.lcd.mode = .hblank → 204 ≤ c → ly ≠ 144 →
      s.tick n = { s with lcd := { s.lcd with counter := 0, scanline := ly, mode := .searchingOam } }) ∧
    (s.lcd.mode = .hblank → 204 ≤ c → ly = 144 →
      s.tick n = { s with lcd := { s.lcd with counter := 0, scanline := ly, mode := .vblank }, ifReg := s.ifReg ||| 0x01 }) ∧
    (s.lcd.mode = .vblank → 456 ≤ c → ly.toNat ≤ 153 → s.tick n = { s with lcd := { s.lcd with counter := 0, scanline := ly } }) ∧
    (s.lcd.mode = .vblank → 456 ≤ c → 153 < ly.toNat →
      s.tick n = { s with lcd := { s.lcd with counter := 0, scanline := 0, mode := .searchingOam } })

/-- 10_state.md R31, 50_lcd_ppu.md R322, R326: a tick changes IF only where the scanline becomes 144, and then by bit 0 alone; `frame_done` is raised by exactly that tick. -/
def Obligations.VblankRequestOnlyAtLine144 : Prop :=
  ∀ (s : State) (n : Nat), s.lcd.inv →
    ((s.tick n).ifReg ≠ s.ifReg → s.lcd.scanline = 143 ∧ (s.tick n).lcd.scanline = 144 ∧ (s.tick n).ifReg = s.ifReg ||| 0x01) ∧
    (s.tickRaisesFrameDone n = true ↔ s.lcd.scanline = 143 ∧ (s.tick n).lcd.scanline = 144) ∧
    (s.tickRaisesFrameDone n = true → (s.tick n).lcd.mode = .vblank ∧ (s.tick n).ifReg = s.ifReg ||| 0x01)

/-- 50_lcd_ppu.md R300, R305, R306, R310, R325: each of the 160 pixels of the line takes the palette's shade of its tile pixel, and no other entry of the buffer changes;
with BGEnabled off nothing is drawn. -/
def Obligations.ScanlineIsRenderedFromTiles : Prop :=
  ∀ s : State,
    (s.lcd.control.getLsbD 0 = false → s.renderScanline = s) ∧
    (s.lcd.control.getLsbD 0 = true → { s.renderScanline with screen := s.screen } = s ∧
      ∀ row col, col < 256 → s.renderScanline.screenAt row col =
        if row = s.lcd.scanline.toNat ∧ col < 160 then
          let y := (s.lcd.scy + s.lcd.scanline).toNat
          let x := (s.lcd.scx + BitVec.ofNat 8 col).toNat
          let base := if s.lcd.control.getLsbD 3 then 0x9C00 else 0x9800
          let tile := (s.memAt (base + 32 * (y / 8) + x / 8)).toNat
          let lo := s.memAt (0x8000 + 16 * tile + 2 * (y % 8))
          let hi := s.memAt (0x8000 + 16 * tile + 2 * (y % 8) + 1)
          let p := 2 * (hi.getLsbD (7 - x % 8)).toNat + (lo.getLsbD (7 - x % 8)).toNat
          s.lcd.bgp.toByte.extractLsb' (2 * p) 2
        else s.screenAt row col)

/-- 70_reset_and_hazards.md R392, derived there from 50_lcd_ppu.md R320 to R323: whatever the instruction costs, from the start of a visible scanline the tick that ends the scanline comes after 456 to 516 cycles. -/
def Obligations.VisibleLineLasts456To516 : Prop :=
  ∀ (s : State) (costs : List Nat) (last : Nat),
    s.lcd.mode = .searchingOam → s.lcd.counter = 0 → s.lcd.scanline.toNat < 144 →
    (∀ c ∈ costs ++ [last], c % 4 = 0 ∧ 4 ≤ c ∧ c ≤ 24) →
    (∀ k, k ≤ costs.length → (s.ticks (costs.take k)).lcd.scanline = s.lcd.scanline) →
    (s.ticks (costs ++ [last])).lcd.scanline ≠ s.lcd.scanline →
    456 ≤ (costs ++ [last]).sum ∧ (costs ++ [last]).sum ≤ 516
end

