-- ==== Sys2Proof/Laws/Flags.lean ====
section
/-! SUPPORT. One lemma for each result function: what it computes, in whole-byte and whole-word terms. -/

namespace Sys2Proof.Machine

/-- `add8` (R165). -/
theorem add8_eq (a v : Byte) (c : Bool) : add8 a v c = (a + v + (BitVec.ofBool c).setWidth 8, addFlags a v c) := by
  have e1 : BitVec.ofNat 8 (a.toNat + v.toNat + c.toNat) = a + v + (BitVec.ofBool c).setWidth 8 := by
    apply BitVec.eq_of_toNat_eq; simp
  unfold add8 addFlags
  simp only [e1]
  refine Prod.ext rfl ?_
  simp only [Flags.mk.injEq, true_and]
  have ha := a.isLt
  have hv := v.isLt
  have hc := c.toNat_lt
  constructor
  · simp only [nib, BitVec.getLsbD, Nat.testBit, BitVec.toNat_add, BitVec.toNat_setWidth, BitVec.extractLsb'_toNat,
      BitVec.toNat_ofBool, Nat.shiftRight_eq_div_pow]
    simp
    rw [Bool.eq_iff_iff]; simp; omega
  · simp only [BitVec.getLsbD, Nat.testBit, BitVec.toNat_add, BitVec.toNat_setWidth, BitVec.toNat_ofBool, Nat.shiftRight_eq_div_pow]
    simp
    rw [Bool.eq_iff_iff]; simp; omega

/-- `sub8` (R165). -/
theorem sub8_eq (a v : Byte) (c : Bool) : sub8 a v c = (a - v - (BitVec.ofBool c).setWidth 8, subFlags a v c) := by
  have ha := a.isLt
  have hv := v.isLt
  have hc := c.toNat_lt
  have e1 : BitVec.ofInt 8 ((a.toNat : Int) - v.toNat - c.toNat) = a - v - (BitVec.ofBool c).setWidth 8 := by
    apply BitVec.eq_of_toNat_eq; simp [BitVec.toNat_ofInt, BitVec.toNat_sub]; omega
  unfold sub8 subFlags
  simp only [e1]
  refine Prod.ext rfl ?_
  simp only [Flags.mk.injEq, true_and]
  constructor
  · have h : ∀ (x y : BitVec 4) (c : Bool), decide (x.toNat < y.toNat + c.toNat) =
        (x.setWidth 5 - y.setWidth 5 - (BitVec.ofBool c).setWidth 5).getLsbD 4 := by decide
    rw [← h]; simp [nib]; congr
  · simp only [BitVec.getLsbD, Nat.testBit, BitVec.toNat_sub, BitVec.toNat_setWidth, BitVec.toNat_ofBool, Nat.shiftRight_eq_div_pow]
    simp
    rw [Bool.eq_iff_iff]; simp; omega

/-- `inc8` (R190). -/
theorem inc8_eq (v : Byte) (f : Flags) : inc8 v f = (v + 1, ⟨v == 0xFF, false, v.extractLsb' 0 4 == 0xF, f.c⟩) := by
  have h : ∀ v : Byte, (v + 1 == 0) = (v == 0xFF) ∧ (nib v == 0xF) = (v.extractLsb' 0 4 == 0xF) := by decide
  unfold inc8; simp only [(h v).1, (h v).2]

/-- `dec8` (R192). -/
theorem dec8_eq (v : Byte) (f : Flags) : dec8 v f = (v - 1, ⟨v == 0x01, true, v.extractLsb' 0 4 == 0x0, f.c⟩) := by
  have h : ∀ v : Byte, (v - 1 == 0) = (v == 0x01) ∧ (nib v == 0x0) = (v.extractLsb' 0 4 == 0x0) := by decide
  unfold dec8; simp only [(h v).1, (h v).2]

/-- `addHl16` (R210). -/
theorem addHl16_eq (x y : Word) (f : Flags) : addHl16 x y f =
    (x + y, ⟨f.z, false, ((x.extractLsb' 0 12).setWidth 13 + (y.extractLsb' 0 12).setWidth 13).getLsbD 12,
      (x.setWidth 17 + y.setWidth 17).getLsbD 16⟩) := by
  have hx := x.isLt
  have hy := y.isLt
  unfold addHl16
  refine Prod.ext ?_ ?_
  · apply BitVec.eq_of_toNat_eq; simp
  · simp only [Flags.mk.injEq, true_and]
    constructor
    · simp only [BitVec.getLsbD, Nat.testBit, BitVec.toNat_add, BitVec.toNat_setWidth, BitVec.extractLsb'_toNat, Nat.shiftRight_eq_div_pow]
      simp
      rw [Bool.eq_iff_iff]; simp; omega
    · simp only [BitVec.getLsbD, Nat.testBit, BitVec.toNat_add, BitVec.toNat_setWidth, Nat.shiftRight_eq_div_pow]
      simp
      rw [Bool.eq_iff_iff]; simp; omega

/-- A signed displacement added to a word, as an integer sum (R97, R153, R213). -/
theorem add_sext16 (a : Word) (e : Byte) : a + sext16 e = BitVec.ofInt 16 (a.toNat + e.toInt) := by
  rw [BitVec.ofInt_add, sext16, BitVec.signExtend]; simp

/-- The target of JR, as an integer sum (R223). -/
theorem jrTarget_eq (s : State) (e : Byte) : s.jrTarget e = BitVec.ofInt 16 (s.pc.toNat + 2 + e.toInt) := by
  rw [State.jrTarget, add_sext16]
  apply BitVec.eq_of_toNat_eq
  simp [BitVec.toNat_ofInt, BitVec.toNat_add]

/-- The high page (R131 to R134). -/
theorem highPage_eq (b : Byte) : highPage b = 0xFF#8 ++ b := by revert b; decide

/-- The restart target (R100). -/
theorem rstTarget_eq (t : BitVec 3) : rstTarget t = BitVec.ofNat 16 (8 * t.toNat) := by revert t; decide

/-- RES writes one bit (R262). -/
theorem bitReplaced_resBit (v : Byte) (b : BitVec 3) : BitReplaced v (resBit v b) b false := by
  intro j hj
  simp only [resBit, oneBit, BitVec.getLsbD_and, BitVec.getLsbD_not, BitVec.getLsbD_shiftLeft]
  rcases Nat.lt_trichotomy j b.toNat with h | h | h
  · simp [hj, h, h.ne]
  · subst h; simp [hj]
  · simp [hj, h.ne', Nat.not_lt.mpr h.le, show ¬(j - b.toNat = 0) by omega]

/-- SET writes one bit (R264). -/
theorem bitReplaced_setBit (v : Byte) (b : BitVec 3) : BitReplaced v (setBit v b) b true := by
  intro j hj
  simp only [setBit, oneBit, BitVec.getLsbD_or, BitVec.getLsbD_shiftLeft]
  rcases Nat.lt_trichotomy j b.toNat with h | h | h
  · simp [hj, h, h.ne]
  · subst h; simp [hj]
  · simp [hj, h.ne', Nat.not_lt.mpr h.le, show ¬(j - b.toNat = 0) by omega]

end Sys2Proof.Machine
end

