-- ==== Sys2Proof/Laws/State.lean ====
section
/-! SUPPORT. One lemma per field per update of the state. -/

namespace Sys2Proof.Machine

section setReg
variable (s : State) (r : R8) (v : Byte)
@[simp] theorem setReg_regs : (s.setReg r v).regs = s.regs.set r v := rfl
@[simp] theorem setReg_flags : (s.setReg r v).flags = s.flags := rfl
@[simp] theorem setReg_pc : (s.setReg r v).pc = s.pc := rfl
@[simp] theorem setReg_sp : (s.setReg r v).sp = s.sp := rfl
@[simp] theorem setReg_ime : (s.setReg r v).ime = s.ime := rfl
@[simp] theorem setReg_imePending : (s.setReg r v).imePending = s.imePending := rfl
@[simp] theorem setReg_halted : (s.setReg r v).halted = s.halted := rfl
@[simp] theorem setReg_fatal : (s.setReg r v).fatal = s.fatal := rfl
@[simp] theorem setReg_ie : (s.setReg r v).ie = s.ie := rfl
@[simp] theorem setReg_ifReg : (s.setReg r v).ifReg = s.ifReg := rfl
@[simp] theorem setReg_mem : (s.setReg r v).mem = s.mem := rfl
@[simp] theorem setReg_lcd : (s.setReg r v).lcd = s.lcd := rfl
@[simp] theorem setReg_screen : (s.setReg r v).screen = s.screen := rfl
end setReg

section setBc
variable (s : State) (v : Word)
@[simp] theorem setBc_regs : (s.setBc v).regs = { s.regs with b := hiByte v, c := loByte v } := rfl
@[simp] theorem setBc_flags : (s.setBc v).flags = s.flags := rfl
@[simp] theorem setBc_pc : (s.setBc v).pc = s.pc := rfl
@[simp] theorem setBc_sp : (s.setBc v).sp = s.sp := rfl
@[simp] theorem setBc_ime : (s.setBc v).ime = s.ime := rfl
@[simp] theorem setBc_imePending : (s.setBc v).imePending = s.imePending := rfl
@[simp] theorem setBc_halted : (s.setBc v).halted = s.halted := rfl
@[simp] theorem setBc_fatal : (s.setBc v).fatal = s.fatal := rfl
@[simp] theorem setBc_ie : (s.setBc v).ie = s.ie := rfl
@[simp] theorem setBc_ifReg : (s.setBc v).ifReg = s.ifReg := rfl
@[simp] theorem setBc_mem : (s.setBc v).mem = s.mem := rfl
@[simp] theorem setBc_lcd : (s.setBc v).lcd = s.lcd := rfl
@[simp] theorem setBc_screen : (s.setBc v).screen = s.screen := rfl
end setBc

section setDe
variable (s : State) (v : Word)
@[simp] theorem setDe_regs : (s.setDe v).regs = { s.regs with d := hiByte v, e := loByte v } := rfl
@[simp] theorem setDe_flags : (s.setDe v).flags = s.flags := rfl
@[simp] theorem setDe_pc : (s.setDe v).pc = s.pc := rfl
@[simp] theorem setDe_sp : (s.setDe v).sp = s.sp := rfl
@[simp] theorem setDe_ime : (s.setDe v).ime = s.ime := rfl
@[simp] theorem setDe_imePending : (s.setDe v).imePending = s.imePending := rfl
@[simp] theorem setDe_halted : (s.setDe v).halted = s.halted := rfl
@[simp] theorem setDe_fatal : (s.setDe v).fatal = s.fatal := rfl
@[simp] theorem setDe_ie : (s.setDe v).ie = s.ie := rfl
@[simp] theorem setDe_ifReg : (s.setDe v).ifReg = s.ifReg := rfl
@[simp] theorem setDe_mem : (s.setDe v).mem = s.mem := rfl
@[simp] theorem setDe_lcd : (s.setDe v).lcd = s.lcd := rfl
@[simp] theorem setDe_screen : (s.setDe v).screen = s.screen := rfl
end setDe

section setHl
variable (s : State) (v : Word)
@[simp] theorem setHl_regs : (s.setHl v).regs = { s.regs with h := hiByte v, l := loByte v } := rfl
@[simp] theorem setHl_flags : (s.setHl v).flags = s.flags := rfl
@[simp] theorem setHl_pc : (s.setHl v).pc = s.pc := rfl
@[simp] theorem setHl_sp : (s.setHl v).sp = s.sp := rfl
@[simp] theorem setHl_ime : (s.setHl v).ime = s.ime := rfl
@[simp] theorem setHl_imePending : (s.setHl v).imePending = s.imePending := rfl
@[simp] theorem setHl_halted : (s.setHl v).halted = s.halted := rfl
@[simp] theorem setHl_fatal : (s.setHl v).fatal = s.fatal := rfl
@[simp] theorem setHl_ie : (s.setHl v).ie = s.ie := rfl
@[simp] theorem setHl_ifReg : (s.setHl v).ifReg = s.ifReg := rfl
@[simp] theorem setHl_mem : (s.setHl v).mem = s.mem := rfl
@[simp] theorem setHl_lcd : (s.setHl v).lcd = s.lcd := rfl
@[simp] theorem setHl_screen : (s.setHl v).screen = s.screen := rfl
end setHl

section setSp
variable (s : State) (v : Word)
@[simp] theorem setSp_regs : (s.setSp v).regs = s.regs := rfl
@[simp] theorem setSp_flags : (s.setSp v).flags = s.flags := rfl
@[simp] theorem setSp_pc : (s.setSp v).pc = s.pc := rfl
@[simp] theorem setSp_sp : (s.setSp v).sp = v := rfl
@[simp] theorem setSp_ime : (s.setSp v).ime = s.ime := rfl
@[simp] theorem setSp_imePending : (s.setSp v).imePending = s.imePending := rfl
@[simp] theorem setSp_halted : (s.setSp v).halted = s.halted := rfl
@[simp] theorem setSp_fatal : (s.setSp v).fatal = s.fatal := rfl
@[simp] theorem setSp_ie : (s.setSp v).ie = s.ie := rfl
@[simp] theorem setSp_ifReg : (s.setSp v).ifReg = s.ifReg := rfl
@[simp] theorem setSp_mem : (s.setSp v).mem = s.mem := rfl
@[simp] theorem setSp_lcd : (s.setSp v).lcd = s.lcd := rfl
@[simp] theorem setSp_screen : (s.setSp v).screen = s.screen := rfl
end setSp

section setFlags
variable (s : State) (f : Flags)
@[simp] theorem setFlags_regs : (s.setFlags f).regs = s.regs := rfl
@[simp] theorem setFlags_flags : (s.setFlags f).flags = f := rfl
@[simp] theorem setFlags_pc : (s.setFlags f).pc = s.pc := rfl
@[simp] theorem setFlags_sp : (s.setFlags f).sp = s.sp := rfl
@[simp] theorem setFlags_ime : (s.setFlags f).ime = s.ime := rfl
@[simp] theorem setFlags_imePending : (s.setFlags f).imePending = s.imePending := rfl
@[simp] theorem setFlags_halted : (s.setFlags f).halted = s.halted := rfl
@[simp] theorem setFlags_fatal : (s.setFlags f).fatal = s.fatal := rfl
@[simp] theorem setFlags_ie : (s.setFlags f).ie = s.ie := rfl
@[simp] theorem setFlags_ifReg : (s.setFlags f).ifReg = s.ifReg := rfl
@[simp] theorem setFlags_mem : (s.setFlags f).mem = s.mem := rfl
@[simp] theorem setFlags_lcd : (s.setFlags f).lcd = s.lcd := rfl
@[simp] theorem setFlags_screen : (s.setFlags f).screen = s.screen := rfl
end setFlags

section advance
variable (s : State) (n : Word)
@[simp] theorem advance_regs : (s.advance n).regs = s.regs := rfl
@[simp] theorem advance_flags : (s.advance n).flags = s.flags := rfl
@[simp] theorem advance_pc : (s.advance n).pc = s.pc + n := rfl
@[simp] theorem advance_sp : (s.advance n).sp = s.sp := rfl
@[simp] theorem advance_ime : (s.advance n).ime = s.ime := rfl
@[simp] theorem advance_imePending : (s.advance n).imePending = s.imePending := rfl
@[simp] theorem advance_halted : (s.advance n).halted = s.halted := rfl
@[simp] theorem advance_fatal : (s.advance n).fatal = s.fatal := rfl
@[simp] theorem advance_ie : (s.advance n).ie = s.ie := rfl
@[simp] theorem advance_ifReg : (s.advance n).ifReg = s.ifReg := rfl
@[simp] theorem advance_mem : (s.advance n).mem = s.mem := rfl
@[simp] theorem advance_lcd : (s.advance n).lcd = s.lcd := rfl
@[simp] theorem advance_screen : (s.advance n).screen = s.screen := rfl
end advance

section jump
variable (s : State) (n : Word)
@[simp] theorem jump_regs : (s.jump n).regs = s.regs := rfl
@[simp] theorem jump_flags : (s.jump n).flags = s.flags := rfl
@[simp] theorem jump_pc : (s.jump n).pc = n := rfl
@[simp] theorem jump_sp : (s.jump n).sp = s.sp := rfl
@[simp] theorem jump_ime : (s.jump n).ime = s.ime := rfl
@[simp] theorem jump_imePending : (s.jump n).imePending = s.imePending := rfl
@[simp] theorem jump_halted : (s.jump n).halted = s.halted := rfl
@[simp] theorem jump_fatal : (s.jump n).fatal = s.fatal := rfl
@[simp] theorem jump_ie : (s.jump n).ie = s.ie := rfl
@[simp] theorem jump_ifReg : (s.jump n).ifReg = s.ifReg := rfl
@[simp] theorem jump_mem : (s.jump n).mem = s.mem := rfl
@[simp] theorem jump_lcd : (s.jump n).lcd = s.lcd := rfl
@[simp] theorem jump_screen : (s.jump n).screen = s.screen := rfl
end jump

section popSp
variable (s : State)
@[simp] theorem popSp_regs : (s.popSp).regs = s.regs := rfl
@[simp] theorem popSp_flags : (s.popSp).flags = s.flags := rfl
@[simp] theorem popSp_pc : (s.popSp).pc = s.pc := rfl
@[simp] theorem popSp_sp : (s.popSp).sp = s.sp + 2 := rfl
@[simp] theorem popSp_ime : (s.popSp).ime = s.ime := rfl
@[simp] theorem popSp_imePending : (s.popSp).imePending = s.imePending := rfl
@[simp] theorem popSp_halted : (s.popSp).halted = s.halted := rfl
@[simp] theorem popSp_fatal : (s.popSp).fatal = s.fatal := rfl
@[simp] theorem popSp_ie : (s.popSp).ie = s.ie := rfl
@[simp] theorem popSp_ifReg : (s.popSp).ifReg = s.ifReg := rfl
@[simp] theorem popSp_mem : (s.popSp).mem = s.mem := rfl
@[simp] theorem popSp_lcd : (s.popSp).lcd = s.lcd := rfl
@[simp] theorem popSp_screen : (s.popSp).screen = s.screen := rfl
end popSp

section raiseFatal
variable (s : State) (f : Fatal)
@[simp] theorem raiseFatal_regs : (s.raiseFatal f).regs = s.regs := rfl
@[simp] theorem raiseFatal_flags : (s.raiseFatal f).flags = s.flags := rfl
@[simp] theorem raiseFatal_pc : (s.raiseFatal f).pc = s.pc := rfl
@[simp] theorem raiseFatal_sp : (s.raiseFatal f).sp = s.sp := rfl
@[simp] theorem raiseFatal_ime : (s.raiseFatal f).ime = s.ime := rfl
@[simp] theorem raiseFatal_imePending : (s.raiseFatal f).imePending = s.imePending := rfl
@[simp] theorem raiseFatal_halted : (s.raiseFatal f).halted = s.halted := rfl
@[simp] theorem raiseFatal_fatal : (s.raiseFatal f).fatal = some f := rfl
@[simp] theorem raiseFatal_ie : (s.raiseFatal f).ie = s.ie := rfl
@[simp] theorem raiseFatal_ifReg : (s.raiseFatal f).ifReg = s.ifReg := rfl
@[simp] theorem raiseFatal_mem : (s.raiseFatal f).mem = s.mem := rfl
@[simp] theorem raiseFatal_lcd : (s.raiseFatal f).lcd = s.lcd := rfl
@[simp] theorem raiseFatal_screen : (s.raiseFatal f).screen = s.screen := rfl
end raiseFatal

section requestIrq
variable (s : State) (k : IrqSource)
@[simp] theorem requestIrq_regs : (s.requestIrq k).regs = s.regs := rfl
@[simp] theorem requestIrq_flags : (s.requestIrq k).flags = s.flags := rfl
@[simp] theorem requestIrq_pc : (s.requestIrq k).pc = s.pc := rfl
@[simp] theorem requestIrq_sp : (s.requestIrq k).sp = s.sp := rfl
@[simp] theorem requestIrq_ime : (s.requestIrq k).ime = s.ime := rfl
@[simp] theorem requestIrq_imePending : (s.requestIrq k).imePending = s.imePending := rfl
@[simp] theorem requestIrq_halted : (s.requestIrq k).halted = s.halted := rfl
@[simp] theorem requestIrq_fatal : (s.requestIrq k).fatal = s.fatal := rfl
@[simp] theorem requestIrq_ie : (s.requestIrq k).ie = s.ie := rfl
@[simp] theorem requestIrq_ifReg : (s.requestIrq k).ifReg = s.ifReg ||| oneBit k.bit := rfl
@[simp] theorem requestIrq_mem : (s.requestIrq k).mem = s.mem := rfl
@[simp] theorem requestIrq_lcd : (s.requestIrq k).lcd = s.lcd := rfl
@[simp] theorem requestIrq_screen : (s.requestIrq k).screen = s.screen := rfl
end requestIrq

section setMemAt
variable (s : State) (a : Nat) (v : Byte)
@[simp] theorem setMemAt_regs : (s.setMemAt a v).regs = s.regs := rfl
@[simp] theorem setMemAt_flags : (s.setMemAt a v).flags = s.flags := rfl
@[simp] theorem setMemAt_pc : (s.setMemAt a v).pc = s.pc := rfl
@[simp] theorem setMemAt_sp : (s.setMemAt a v).sp = s.sp := rfl
@[simp] theorem setMemAt_ime : (s.setMemAt a v).ime = s.ime := rfl
@[simp] theorem setMemAt_imePending : (s.setMemAt a v).imePending = s.imePending := rfl
@[simp] theorem setMemAt_halted : (s.setMemAt a v).halted = s.halted := rfl
@[simp] theorem setMemAt_fatal : (s.setMemAt a v).fatal = s.fatal := rfl
@[simp] theorem setMemAt_ie : (s.setMemAt a v).ie = s.ie := rfl
@[simp] theorem setMemAt_ifReg : (s.setMemAt a v).ifReg = s.ifReg := rfl
@[simp] theorem setMemAt_mem : (s.setMemAt a v).mem = Store.put Config.memInit s.mem a v := rfl
@[simp] theorem setMemAt_lcd : (s.setMemAt a v).lcd = s.lcd := rfl
@[simp] theorem setMemAt_screen : (s.setMemAt a v).screen = s.screen := rfl
end setMemAt

section setCounter
variable (s : State) (k : Nat)
@[simp] theorem setCounter_regs : (s.setCounter k).regs = s.regs := rfl
@[simp] theorem setCounter_flags : (s.setCounter k).flags = s.flags := rfl
@[simp] theorem setCounter_pc : (s.setCounter k).pc = s.pc := rfl
@[simp] theorem setCounter_sp : (s.setCounter k).sp = s.sp := rfl
@[simp] theorem setCounter_ime : (s.setCounter k).ime = s.ime := rfl
@[simp] theorem setCounter_imePending : (s.setCounter k).imePending = s.imePending := rfl
@[simp] theorem setCounter_halted : (s.setCounter k).halted = s.halted := rfl
@[simp] theorem setCounter_fatal : (s.setCounter k).fatal = s.fatal := rfl
@[simp] theorem setCounter_ie : (s.setCounter k).ie = s.ie := rfl
@[simp] theorem setCounter_ifReg : (s.setCounter k).ifReg = s.ifReg := rfl
@[simp] theorem setCounter_mem : (s.setCounter k).mem = s.mem := rfl
@[simp] theorem setCounter_lcd : (s.setCounter k).lcd = { s.lcd with counter := k } := rfl
@[simp] theorem setCounter_screen : (s.setCounter k).screen = s.screen := rfl
end setCounter

/-- Reading a register after a write of one. -/
@[simp] theorem Regs.get_set (g : Regs) (r q : R8) (v : Byte) : (g.set r v).get q = if q = r then v else g.get q := by
  cases r <;> cases q <;> rfl

@[simp] theorem reg_setReg (s : State) (r q : R8) (v : Byte) : (s.setReg r v).reg q = if q = r then v else s.reg q :=
  Regs.get_set s.regs r q v

theorem getLsbD_pack (h l : Byte) (i : Nat) : (pack h l).getLsbD i = if i < 8 then l.getLsbD i else h.getLsbD (i - 8) :=
  BitVec.getLsbD_append

@[simp] theorem hiByte_pack (h l : Byte) : hiByte (pack h l) = h := by
  refine BitVec.eq_of_getLsbD_eq fun i hi => ?_
  simp only [hiByte, BitVec.getLsbD_extractLsb', getLsbD_pack, hi, decide_true, Bool.true_and]
  rw [if_neg (by omega), Nat.add_sub_cancel_left]

@[simp] theorem loByte_pack (h l : Byte) : loByte (pack h l) = l := by
  refine BitVec.eq_of_getLsbD_eq fun i hi => ?_
  simp [loByte, getLsbD_pack, hi]

@[simp] theorem pack_hi_lo (v : Word) : pack (hiByte v) (loByte v) = v := by
  refine BitVec.eq_of_getLsbD_eq fun i hi => ?_
  rw [getLsbD_pack]
  by_cases h : i < 8
  · simp [loByte, h]
  · have h' : i - 8 < 8 := by omega
    have hs : 8 + (i - 8) = i := by omega
    simp [hiByte, h, h', hs]

@[simp] theorem bc_setBc (s : State) (v : Word) : (s.setBc v).bc = v := pack_hi_lo v
@[simp] theorem de_setDe (s : State) (v : Word) : (s.setDe v).de = v := pack_hi_lo v
@[simp] theorem hl_setHl (s : State) (v : Word) : (s.setHl v).hl = v := pack_hi_lo v

/-- A pair reads as it was written (R11, R99). -/
@[simp] theorem pair_setPair (s : State) (p : Pair) (v : Word) : (s.setPair p v).pair p = v := by
  cases p <;> first | exact pack_hi_lo v | rfl

/-- A pair write is a write of registers and SP alone. -/
theorem setPair_frame (s : State) (p : Pair) (v : Word) :
    (s.setPair p v) = { s with regs := (s.setPair p v).regs, sp := (s.setPair p v).sp } := by
  cases p <;> rfl

/-- A stack pair write is a write of registers and flags alone. -/
theorem setStackPair_frame (s : State) (q : StackPair) (v : Word) :
    (s.setStackPair q v) = { s with regs := (s.setStackPair q v).regs, flags := (s.setStackPair q v).flags } := by
  cases q <;> rfl

end Sys2Proof.Machine
end

