-- ==== Sys2Proof/Laws/Store.lean ====
section
/-! SUPPORT. The laws of sparse storage: read after write for every list, and the canonical form kept by every operation. -/

namespace Sys2Proof.Machine

variable {w : Nat} {d : BitVec w}

@[simp] theorem Store.get_nil (a : Nat) : Store.get d [] a = d := rfl

theorem Store.get_erase (m : List (Nat × BitVec w)) (a b : Nat) :
    Store.get d (Store.erase m a) b = if b = a then d else Store.get d m b := by
  induction m with
  | nil => simp [Store.erase]
  | cons c m ih =>
    obtain ⟨k, u⟩ := c
    by_cases hk : k = a
    · subst hk
      rw [Store.erase, if_pos rfl, ih]
      by_cases hb : b = k
      · simp [hb]
      · simp [hb, Store.get, Ne.symm hb]
    · by_cases hb : k = b
      · subst hb; simp [Store.erase, hk, Store.get]
      · simp [Store.erase, hk, Store.get, hb, ih]

theorem Store.get_insert (m : List (Nat × BitVec w)) (a b : Nat) (v : BitVec w) (hm : ∀ c ∈ m, c.1 ≠ a) :
    Store.get d (Store.insert m a v) b = if b = a then v else Store.get d m b := by
  induction m with
  | nil => simp only [Store.insert, Store.get, eq_comm]
  | cons c m ih =>
    obtain ⟨k, u⟩ := c
    have hk : k ≠ a := hm (k, u) (by simp)
    have ih := ih fun c hc => hm c (by simp [hc])
    by_cases hlt : a < k
    · simp only [Store.insert, hlt, ↓reduceIte, Store.get, eq_comm (a := b)]
    · by_cases h : k = b
      · subst h; simp [Store.insert, hlt, Store.get, hk]
      · simp [Store.insert, hlt, Store.get, h, ih]

theorem Store.mem_erase {m : List (Nat × BitVec w)} {a : Nat} {c : Nat × BitVec w} :
    c ∈ Store.erase m a ↔ c ∈ m ∧ c.1 ≠ a := by
  induction m with
  | nil => simp [Store.erase]
  | cons e m ih =>
    obtain ⟨k, u⟩ := e
    by_cases hk : k = a
    · subst hk
      simp only [Store.erase, ↓reduceIte, ih, List.mem_cons]
      constructor
      · rintro ⟨h, hn⟩; exact ⟨.inr h, hn⟩
      · rintro ⟨rfl | h, hn⟩
        · exact absurd rfl hn
        · exact ⟨h, hn⟩
    · simp only [Store.erase, hk, ↓reduceIte, List.mem_cons, ih]
      constructor
      · rintro (rfl | ⟨h, hn⟩)
        · exact ⟨.inl rfl, hk⟩
        · exact ⟨.inr h, hn⟩
      · rintro ⟨rfl | h, hn⟩
        · exact .inl rfl
        · exact .inr ⟨h, hn⟩

/-- Read after write, for every list (20_memory.md R53). -/
@[simp] theorem Store.get_put (m : List (Nat × BitVec w)) (a b : Nat) (v : BitVec w) :
    Store.get d (Store.put d m a v) b = if b = a then v else Store.get d m b := by
  unfold Store.put
  by_cases hv : v = d
  · simp [hv, Store.get_erase]
  · rw [if_neg hv, Store.get_insert _ _ _ _ fun c hc => (Store.mem_erase.mp hc).2, Store.get_erase]
    by_cases h : b = a <;> simp [h]

theorem Store.mem_insert {m : List (Nat × BitVec w)} {a : Nat} {v : BitVec w} {c : Nat × BitVec w} :
    c ∈ Store.insert m a v ↔ c = (a, v) ∨ c ∈ m := by
  induction m with
  | nil => simp [Store.insert]
  | cons e m ih =>
    obtain ⟨k, u⟩ := e
    by_cases hlt : a < k
    · simp [Store.insert, hlt]
    · simp only [Store.insert, hlt, ↓reduceIte, List.mem_cons, ih]; tauto

theorem Store.wf_cons {k : Nat} {v : BitVec w} {m : List (Nat × BitVec w)} :
    Store.wf d ((k, v) :: m) = true ↔ v ≠ d ∧ (∀ c ∈ m, k < c.1) ∧ Store.wf d m = true := by
  simp [Store.wf, and_assoc]

theorem Store.wf_erase {m : List (Nat × BitVec w)} (a : Nat) (h : Store.wf d m = true) : Store.wf d (Store.erase m a) = true := by
  induction m with
  | nil => rfl
  | cons e m ih =>
    obtain ⟨k, u⟩ := e
    obtain ⟨hv, hlt, hm⟩ := Store.wf_cons.mp h
    by_cases hk : k = a
    · simpa [Store.erase, hk] using ih hm
    · simp only [Store.erase, hk, ↓reduceIte]
      exact Store.wf_cons.mpr ⟨hv, fun c hc => hlt c (Store.mem_erase.mp hc).1, ih hm⟩

theorem Store.wf_insert {m : List (Nat × BitVec w)} {a : Nat} {v : BitVec w} (hv : v ≠ d) (hm : ∀ c ∈ m, c.1 ≠ a)
    (h : Store.wf d m = true) : Store.wf d (Store.insert m a v) = true := by
  induction m with
  | nil => exact Store.wf_cons.mpr ⟨hv, by simp, rfl⟩
  | cons e m ih =>
    obtain ⟨k, u⟩ := e
    obtain ⟨hu, hlt, hw⟩ := Store.wf_cons.mp h
    have hk : k ≠ a := hm (k, u) (by simp)
    by_cases hak : a < k
    · simp only [Store.insert, hak, ↓reduceIte]
      refine Store.wf_cons.mpr ⟨hv, fun c hc => ?_, h⟩
      rcases List.mem_cons.mp hc with rfl | hc
      · exact hak
      · exact hak.trans (hlt c hc)
    · simp only [Store.insert, hak, ↓reduceIte]
      refine Store.wf_cons.mpr ⟨hu, fun c hc => ?_, ih (fun c hc => hm c (by simp [hc])) hw⟩
      rcases Store.mem_insert.mp hc with rfl | hc
      · simp only; omega
      · exact hlt c hc

/-- A write keeps the canonical form. -/
theorem Store.wf_put {m : List (Nat × BitVec w)} (a : Nat) (v : BitVec w) (h : Store.wf d m = true) :
    Store.wf d (Store.put d m a v) = true := by
  unfold Store.put
  by_cases hv : v = d
  · simpa [hv] using Store.wf_erase a h
  · rw [if_neg hv]
    exact Store.wf_insert hv (fun c hc => (Store.mem_erase.mp hc).2) (Store.wf_erase a h)

theorem Store.mem_put {m : List (Nat × BitVec w)} {a : Nat} {v : BitVec w} {c : Nat × BitVec w}
    (h : c ∈ Store.put d m a v) : c = (a, v) ∨ c ∈ m := by
  unfold Store.put at h
  split at h
  · exact .inr (Store.mem_erase.mp h).1
  · rcases Store.mem_insert.mp h with h | h
    · exact .inl h
    · exact .inr (Store.mem_erase.mp h).1

/-- A write of an address keeps the canonical form of memory. -/
theorem Memory.wf_put {m : List Host.Cell} {a : Nat} (v : Byte) (ha : a < Config.memSize) (h : Memory.wf m = true) :
    Memory.wf (Store.put Config.memInit m a v) = true := by
  simp only [Memory.wf, Bool.and_eq_true, List.all_eq_true, decide_eq_true_eq] at h ⊢
  refine ⟨Store.wf_put a v h.1, fun c hc => ?_⟩
  rcases Store.mem_put hc with rfl | hc
  · exact ha
  · exact h.2 c hc

/-- A write of a driven pixel keeps the canonical form of the screen buffer. -/
theorem Screen.wf_put {m : List (Nat × Shade)} {row col : Nat} (v : Shade) (hr : row < Config.vblankLine)
    (hc : col < Config.visibleWidth) (h : Screen.wf m = true) :
    Screen.wf (Store.put Config.screenInit m (Config.screenWidth * row + col) v) = true := by
  simp only [Screen.wf, Bool.and_eq_true, List.all_eq_true, decide_eq_true_eq] at h ⊢
  refine ⟨Store.wf_put _ v h.1, fun c hm => ?_⟩
  rcases Store.mem_put hm with rfl | hm
  · simp only [Config.screenWidth, Config.vblankLine, Config.visibleWidth] at *; omega
  · exact h.2 c hm

/-- Reset memory has the canonical form. -/
theorem Memory.wf_reset : Memory.wf State.reset.mem = true := rfl

/-- A store through the flat array keeps the canonical form of memory. -/
theorem State.setMemAt_wf {s : State} {a : Nat} (v : Byte) (ha : a < Config.memSize) (h : Memory.wf s.mem = true) :
    Memory.wf (s.setMemAt a v).mem = true := Memory.wf_put v ha h

/-- A store through the router keeps the canonical form of memory. -/
theorem State.writeBus_wf {s : State} (a : Word) (v : Byte) (h : Memory.wf s.mem = true) :
    Memory.wf (s.writeBus a v).mem = true := by
  unfold State.writeBus
  split
  · exact h
  · split
    · exact h
    · split
      · exact h
      · exact Memory.wf_put v a.isLt h

/-- A 16-bit store keeps the canonical form of memory. -/
theorem State.writeBus16_wf {s : State} (a v : Word) (h : Memory.wf s.mem = true) :
    Memory.wf (s.writeBus16 a v).mem = true := State.writeBus_wf _ _ (State.writeBus_wf _ _ h)

/-- A push keeps the canonical form of memory. -/
theorem State.push16_wf {s : State} (v : Word) (h : Memory.wf s.mem = true) : Memory.wf (s.push16 v).mem = true :=
  State.writeBus_wf (s := s.writeBus _ _) _ _ (State.writeBus_wf _ _ h)

/-- Taking an interrupt keeps the canonical form of memory. -/
theorem State.dispatch_wf {s : State} (k : IrqSource) (h : Memory.wf s.mem = true) : Memory.wf (s.dispatch k).mem = true :=
  State.push16_wf (s := { s with ifReg := s.ifReg &&& ~~~(oneBit k.bit), ime := false, imePending := false }) s.pc h

/-- The image load keeps the canonical form of memory. -/
theorem State.loadFrom_wf (image : List Byte) : ∀ (s : State) (a : Nat), Memory.wf s.mem = true →
    Memory.wf (s.loadFrom a image).mem = true := by
  induction image with
  | nil => exact fun _ _ h => h
  | cons b bs ih =>
    intro s a h
    unfold State.loadFrom
    split
    · exact ih _ _ (Memory.wf_put b ‹_› h)
    · exact h

/-- Placing an instruction where the step fetches keeps the canonical form of memory. -/
theorem State.putFetchBytes_wf {s : State} (b0 b1 b2 : Byte) (h : Memory.wf s.mem = true) :
    Memory.wf (s.putFetchBytes b0 b1 b2).mem = true :=
  State.writeBus_wf _ _ (State.writeBus_wf _ _ (State.writeBus_wf _ _ h))

end Sys2Proof.Machine
end

