-- ==== Sys2Proof/Laws/Ops.lean ====
section
/-! SUPPORT. One lemma per shared operation: the router, the stack, taking an interrupt, the interrupt check, the LCD tick, the sequencer. -/

namespace Sys2Proof.Machine

/-- The intercepted LCD registers are the twelve addresses of R330. -/
theorem isLcdAddr_iff (a : Word) : isLcdAddr a = true ↔ 0xFF40 ≤ a.toNat ∧ a.toNat ≤ 0xFF4B := by
  simp [isLcdAddr, Config.lcdFirst, Config.lcdLast, BitVec.le_def]

theorem isPlain_iff (a : Word) : isPlain a = true ↔ a ≠ Config.ifAddr ∧ a ≠ Config.ieAddr ∧ isLcdAddr a = false := by
  have h : isPlain a = (a != Config.ifAddr && a != Config.ieAddr && !isLcdAddr a) := rfl
  simp [h, and_assoc]

/-- Every address is one of four kinds (R51). -/
theorem address_cases (a : Word) : a = Config.ifAddr ∨ a = Config.ieAddr ∨ isLcdAddr a = true ∨ isPlain a = true := by
  rw [isPlain_iff]
  cases isLcdAddr a <;> tauto

theorem lcd_ne_if {a : Word} (h : isLcdAddr a = true) : a ≠ Config.ifAddr := by
  rintro rfl; revert h; decide

theorem lcd_ne_ie {a : Word} (h : isLcdAddr a = true) : a ≠ Config.ieAddr := by
  rintro rfl; revert h; decide

section router
variable (s : State) (v : Byte) {a : Word}
theorem readBus_if : s.readBus Config.ifAddr = s.ifReg := rfl
theorem readBus_ie : s.readBus Config.ieAddr = s.ie := rfl
theorem readBus_lcd (h : isLcdAddr a = true) : s.readBus a = s.lcd.read a := by
  rw [State.readBus, if_neg (lcd_ne_if h), if_neg (lcd_ne_ie h), if_pos h]
theorem readBus_plain (h : isPlain a = true) : s.readBus a = s.memAt a.toNat := by
  obtain ⟨h1, h2, h3⟩ := (isPlain_iff a).mp h
  rw [State.readBus, if_neg h1, if_neg h2, h3]; rfl
theorem writeBus_if : s.writeBus Config.ifAddr v = { s with ifReg := v } := rfl
theorem writeBus_ie : s.writeBus Config.ieAddr v = { s with ie := v } := rfl
theorem writeBus_lcd (h : isLcdAddr a = true) : s.writeBus a v = { s with lcd := s.lcd.write a v } := by
  rw [State.writeBus, if_neg (lcd_ne_if h), if_neg (lcd_ne_ie h), if_pos h]
theorem writeBus_plain (h : isPlain a = true) : s.writeBus a v = s.setMemAt a.toNat v := by
  obtain ⟨h1, h2, h3⟩ := (isPlain_iff a).mp h
  rw [State.writeBus, if_neg h1, if_neg h2, h3]; rfl
end router

/-- Everything a write through the router can do (R52). -/
theorem writeBus_ind {P : State → Prop} (s : State) (a : Word) (v : Byte) (hif : a = Config.ifAddr → P { s with ifReg := v })
    (hie : a = Config.ieAddr → P { s with ie := v }) (hl : isLcdAddr a = true → P { s with lcd := s.lcd.write a v })
    (hm : isPlain a = true → P (s.setMemAt a.toNat v)) : P (s.writeBus a v) := by
  rcases address_cases a with h | h | h | h
  · subst h; exact hif rfl
  · subst h; exact hie rfl
  · rw [writeBus_lcd s v h]; exact hl h
  · rw [writeBus_plain s v h]; exact hm h

/-- A store in the LCD window keeps the mode state machine (R330). -/
theorem lcd_write_frame (l : Lcd) (a : Word) (v : Byte) :
    (l.write a v).mode = l.mode ∧ (l.write a v).counter = l.counter ∧ (l.write a v).scanline = l.scanline := by
  refine ⟨?_, ?_, ?_⟩ <;> simp only [Lcd.write, apply_ite Lcd.mode, apply_ite Lcd.counter, apply_ite Lcd.scanline, ite_self]

section writeBus
variable (s : State) (a : Word) (v : Byte)
@[simp] theorem writeBus_regs : (s.writeBus a v).regs = s.regs :=
  writeBus_ind (P := fun t => t.regs = s.regs) s a v (fun _ => rfl) (fun _ => rfl) (fun _ => rfl) (fun _ => rfl)
@[simp] theorem writeBus_flags : (s.writeBus a v).flags = s.flags :=
  writeBus_ind (P := fun t => t.flags = s.flags) s a v (fun _ => rfl) (fun _ => rfl) (fun _ => rfl) (fun _ => rfl)
@[simp] theorem writeBus_pc : (s.writeBus a v).pc = s.pc :=
  writeBus_ind (P := fun t => t.pc = s.pc) s a v (fun _ => rfl) (fun _ => rfl) (fun _ => rfl) (fun _ => rfl)
@[simp] theorem writeBus_sp : (s.writeBus a v).sp = s.sp :=
  writeBus_ind (P := fun t => t.sp = s.sp) s a v (fun _ => rfl) (fun _ => rfl) (fun _ => rfl) (fun _ => rfl)
@[simp] theorem writeBus_ime : (s.writeBus a v).ime = s.ime :=
  writeBus_ind (P := fun t => t.ime = s.ime) s a v (fun _ => rfl) (fun _ => rfl) (fun _ => rfl) (fun _ => rfl)
@[simp] theorem writeBus_imePending : (s.writeBus a v).imePending = s.imePending :=
  writeBus_ind (P := fun t => t.imePending = s.imePending) s a v (fun _ => rfl) (fun _ => rfl) (fun _ => rfl) (fun _ => rfl)
@[simp] theorem writeBus_halted : (s.writeBus a v).halted = s.halted :=
  writeBus_ind (P := fun t => t.halted = s.halted) s a v (fun _ => rfl) (fun _ => rfl) (fun _ => rfl) (fun _ => rfl)
@[simp] theorem writeBus_fatal : (s.writeBus a v).fatal = s.fatal :=
  writeBus_ind (P := fun t => t.fatal = s.fatal) s a v (fun _ => rfl) (fun _ => rfl) (fun _ => rfl) (fun _ => rfl)
@[simp] theorem writeBus_screen : (s.writeBus a v).screen = s.screen :=
  writeBus_ind (P := fun t => t.screen = s.screen) s a v (fun _ => rfl) (fun _ => rfl) (fun _ => rfl) (fun _ => rfl)
@[simp] theorem writeBus_mode : (s.writeBus a v).lcd.mode = s.lcd.mode :=
  writeBus_ind (P := fun t => t.lcd.mode = s.lcd.mode) s a v (fun _ => rfl) (fun _ => rfl) (fun _ => (lcd_write_frame _ _ _).1) (fun _ => rfl)
@[simp] theorem writeBus_counter : (s.writeBus a v).lcd.counter = s.lcd.counter :=
  writeBus_ind (P := fun t => t.lcd.counter = s.lcd.counter) s a v (fun _ => rfl) (fun _ => rfl) (fun _ => (lcd_write_frame _ _ _).2.1) (fun _ => rfl)
@[simp] theorem writeBus_scanline : (s.writeBus a v).lcd.scanline = s.lcd.scanline :=
  writeBus_ind (P := fun t => t.lcd.scanline = s.lcd.scanline) s a v (fun _ => rfl) (fun _ => rfl) (fun _ => (lcd_write_frame _ _ _).2.2) (fun _ => rfl)
@[simp] theorem writeBus_reg (r : R8) : (s.writeBus a v).reg r = s.reg r := by simp [State.reg]
end writeBus

/-- A read depends on IE, IF, the LCD controller and memory alone. -/
theorem readBus_congr {s t : State} (hie : t.ie = s.ie) (hif : t.ifReg = s.ifReg) (hl : t.lcd = s.lcd) (hm : t.mem = s.mem)
    (a : Word) : t.readBus a = s.readBus a := by
  simp [State.readBus, State.memAt, hie, hif, hl, hm]

section readBus
variable (s : State) (a : Word)
@[simp] theorem readBus_setReg (r : R8) (v : Byte) : (s.setReg r v).readBus a = s.readBus a := rfl
@[simp] theorem readBus_setBc (v : Word) : (s.setBc v).readBus a = s.readBus a := rfl
@[simp] theorem readBus_setDe (v : Word) : (s.setDe v).readBus a = s.readBus a := rfl
@[simp] theorem readBus_setHl (v : Word) : (s.setHl v).readBus a = s.readBus a := rfl
@[simp] theorem readBus_setSp (v : Word) : (s.setSp v).readBus a = s.readBus a := rfl
@[simp] theorem readBus_setFlags (f : Flags) : (s.setFlags f).readBus a = s.readBus a := rfl
@[simp] theorem readBus_advance (n : Word) : (s.advance n).readBus a = s.readBus a := rfl
@[simp] theorem readBus_jump (n : Word) : (s.jump n).readBus a = s.readBus a := rfl
@[simp] theorem readBus_popSp : s.popSp.readBus a = s.readBus a := rfl
@[simp] theorem readBus_raiseFatal (f : Fatal) : (s.raiseFatal f).readBus a = s.readBus a := rfl
@[simp] theorem readBus_setPair (p : Pair) (v : Word) : (s.setPair p v).readBus a = s.readBus a := by cases p <;> rfl
@[simp] theorem readBus_setStackPair (q : StackPair) (v : Word) : (s.setStackPair q v).readBus a = s.readBus a := by
  cases q <;> rfl
end readBus

/-- A store in the LCD window leaves every other register of the window as it reads, but STAT after LYC. -/
theorem lcd_read_write_other (l : Lcd) {a b : Word} (v : Byte) (ha : isLcdAddr a = true) (hb : isLcdAddr b = true)
    (hab : b ≠ a) (hstat : b = 0xFF41 → a ≠ 0xFF45) : (l.write a v).read b = l.read b := by
  rw [isLcdAddr_iff] at ha hb
  obtain ⟨x, hx⟩ : ∃ x : Fin 12, a.toNat = 0xFF40 + x := ⟨⟨a.toNat - 0xFF40, by omega⟩, by simp; omega⟩
  obtain ⟨y, hy⟩ : ∃ y : Fin 12, b.toNat = 0xFF40 + y := ⟨⟨b.toNat - 0xFF40, by omega⟩, by simp; omega⟩
  obtain rfl : a = BitVec.ofNat 16 (0xFF40 + x) := BitVec.eq_of_toNat_eq (by rw [hx]; simp; omega)
  obtain rfl : b = BitVec.ofNat 16 (0xFF40 + y) := BitVec.eq_of_toNat_eq (by rw [hy]; simp; omega)
  fin_cases x <;> fin_cases y <;> first | rfl | exact absurd rfl hab | exact absurd rfl (hstat rfl)

/-- A store leaves every other address as it reads, but STAT after LYC (R51, R52, R331). -/
theorem readBus_writeBus_other (s : State) {a b : Word} (v : Byte) (hab : b ≠ a) (hstat : b = 0xFF41 → a ≠ 0xFF45) :
    (s.writeBus a v).readBus b = s.readBus b := by
  refine writeBus_ind (P := fun t => t.readBus b = s.readBus b) s a v ?_ ?_ ?_ ?_
  · rintro rfl; rw [State.readBus, State.readBus, if_neg hab, if_neg hab]; rfl
  · rintro rfl; rw [State.readBus, State.readBus, if_neg hab, if_neg hab]; rfl
  · intro ha
    rcases address_cases b with rfl | rfl | h | h
    · rfl
    · rfl
    · rw [readBus_lcd _ h, readBus_lcd _ h]; exact lcd_read_write_other _ v ha h hab hstat
    · rw [readBus_plain _ h, readBus_plain _ h]; rfl
  · intro ha
    rcases address_cases b with rfl | rfl | h | h
    · rfl
    · rfl
    · rw [readBus_lcd _ h, readBus_lcd _ h]; rfl
    · have hm : b.toNat ≠ a.toNat := fun h => hab (BitVec.eq_of_toNat_eq h)
      rw [readBus_plain _ h, readBus_plain _ h]; simp [State.memAt, hm]

/-- The bits of STAT (R331). -/
theorem getLsbD_stat (l : Lcd) (i : Nat) : l.stat.getLsbD i =
    if i < 2 then l.mode.code.getLsbD i else if i = 2 then l.scanline == l.lyc
    else if i < 7 then l.statSel.getLsbD (i - 3) else decide (i = 7) := by
  refine BitVec.getLsbD_append.trans (ite_congr rfl (fun _ => rfl) fun h1 => ?_)
  refine BitVec.getLsbD_append.trans ?_
  by_cases h2 : i = 2
  · subst h2; simp
  rw [if_neg (by omega), if_neg h2]
  refine BitVec.getLsbD_append.trans (ite_congr (by apply propext; omega) (fun _ => ?_) fun h3 => ?_)
  · rw [show i - 2 - 1 = i - 3 by omega]
  · by_cases h4 : i = 7
    · subst h4; rfl
    · simp [h4]; omega

/-- The bits of the palette's byte form (R310). -/
theorem getLsbD_toByte (p : Palette) (i : Nat) : p.toByte.getLsbD i =
    if i < 2 then p.p0.getLsbD i else if i < 4 then p.p1.getLsbD (i - 2)
    else if i < 6 then p.p2.getLsbD (i - 4) else p.p3.getLsbD (i - 6) := by
  refine BitVec.getLsbD_append.trans (ite_congr rfl (fun _ => rfl) fun h1 => ?_)
  refine BitVec.getLsbD_append.trans (ite_congr (by apply propext; omega) (fun _ => rfl) fun h1 => ?_)
  refine BitVec.getLsbD_append.trans (ite_congr (by apply propext; omega) (fun _ => ?_) fun h1 => ?_) <;> congr 1

/-- STAT just after a store to it (R331). -/
theorem stat_after_write (l : Lcd) (v : Byte) :
    ({ l with statSel := v.extractLsb' 3 4 } : Lcd).stat = (l.stat &&& 0x87) ||| (v &&& 0x78) := by
  refine BitVec.eq_of_getLsbD_eq fun i hi => ?_
  rw [BitVec.getLsbD_or, BitVec.getLsbD_and, BitVec.getLsbD_and, getLsbD_stat, getLsbD_stat]
  interval_cases i <;> simp

/-- The palette's byte form gives back the byte it was read from (R310). -/
@[simp] theorem Palette.toByte_fromByte (v : Byte) : (Palette.fromByte v).toByte = v := by
  refine BitVec.eq_of_getLsbD_eq fun i hi => ?_
  rw [getLsbD_toByte]
  interval_cases i <;> simp [Palette.fromByte]

/-- The value a store leaves behind at its own address (R51 to R53, R331 to R333). -/
theorem readBus_writeBus_self (s : State) (a : Word) (v : Byte) : (s.writeBus a v).readBus a = s.readsBack a v := by
  refine writeBus_ind (P := fun t => t.readBus a = s.readsBack a v) s a v ?_ ?_ ?_ ?_
  · rintro rfl; rfl
  · rintro rfl; rfl
  · intro ha
    by_cases h41 : a = 0xFF41
    · subst h41; exact stat_after_write s.lcd v
    by_cases h44 : a = 0xFF44
    · subst h44; rfl
    rw [readBus_lcd _ ha, State.readsBack, if_neg h44, if_neg h41]
    rw [isLcdAddr_iff] at ha
    obtain ⟨x, hx⟩ : ∃ x : Fin 12, a.toNat = 0xFF40 + x := ⟨⟨a.toNat - 0xFF40, by omega⟩, by simp; omega⟩
    obtain rfl : a = BitVec.ofNat 16 (0xFF40 + x) := BitVec.eq_of_toNat_eq (by rw [hx]; simp; omega)
    fin_cases x <;> first | rfl | exact absurd rfl h41 | exact absurd rfl h44 | exact Palette.toByte_fromByte v
  · intro ha
    have h41 : a ≠ 0xFF41 := by rintro rfl; revert ha; decide
    have h44 : a ≠ 0xFF44 := by rintro rfl; revert ha; decide
    rw [readBus_plain _ ha, State.readsBack, if_neg h44, if_neg h41]; simp [State.memAt]

/-- STAT but its coincidence bit is the select bits and the mode (R331). -/
theorem stat_masked {l m : Lcd} (h1 : m.statSel = l.statSel) (h2 : m.mode = l.mode) : m.stat &&& 0xFB = l.stat &&& 0xFB := by
  refine BitVec.eq_of_getLsbD_eq fun i hi => ?_
  rw [BitVec.getLsbD_and, BitVec.getLsbD_and, getLsbD_stat, getLsbD_stat, h1, h2]
  by_cases h : i = 2
  · subst h; simp
  · rw [if_neg h, if_neg h]

/-- Only a store to STAT changes its bits but the coincidence bit (R331). -/
theorem stat_writeBus (s : State) {a : Word} (v : Byte) (h : (0xFF41 : Word) ≠ a) :
    (s.writeBus a v).readBus 0xFF41 &&& 0xFB = s.readBus 0xFF41 &&& 0xFB := by
  refine stat_masked (m := (s.writeBus a v).lcd) ?_ (writeBus_mode s a v)
  refine writeBus_ind (P := fun t => t.lcd.statSel = s.lcd.statSel) s a v (fun _ => rfl) (fun _ => rfl) (fun _ => ?_) (fun _ => rfl)
  simp only [Lcd.write]
  rw [if_neg (c := a = 0xFF41) h.symm]
  repeat' split
  all_goals rfl

/-- A store leaves every other address as it reads, but STAT after LYC, in the form the frames use. -/
theorem stores_writeBus (s : State) (a : Word) (v : Byte) : Stores [(a, v)] s (s.writeBus a v) := by
  refine ⟨fun c hc => ?_, fun b hb hstat => ?_, fun hb => stat_writeBus s v (by simpa using hb)⟩
  · obtain rfl := List.mem_singleton.mp hc
    exact readBus_writeBus_self s a v
  · simp only [List.map_cons, List.map_nil, List.mem_singleton] at hb hstat
    exact readBus_writeBus_other s v hb fun h h' => hstat h h'.symm

/-- Two stores, at addresses that do not touch each other. -/
theorem stores_writeBus_two (s : State) {a b : Word} (v w : Byte) (hab : b ≠ a) (h1 : b = 0xFF41 → a ≠ 0xFF45)
    (h2 : a = 0xFF41 → b ≠ 0xFF45) : Stores [(a, v), (b, w)] s ((s.writeBus a v).writeBus b w) := by
  refine ⟨fun c hc => ?_, fun x hx hstat => ?_, fun hx => ?_⟩
  · simp only [List.mem_cons, List.not_mem_nil, or_false] at hc
    rcases hc with rfl | rfl
    · rw [readBus_writeBus_other _ w hab.symm h2, readBus_writeBus_self]
    · rw [readBus_writeBus_self, State.readsBack, State.readsBack, readBus_writeBus_other _ v hab h1]
  · simp only [List.map_cons, List.map_nil, List.mem_cons, List.not_mem_nil, or_false, not_or] at hx hstat
    rw [readBus_writeBus_other _ w hx.2 fun h h' => (hstat h).2 h'.symm, readBus_writeBus_other _ v hx.1 fun h h' => (hstat h).1 h'.symm]
  · simp only [List.map_cons, List.map_nil, List.mem_cons, List.not_mem_nil, or_false, not_or] at hx
    rw [stat_writeBus _ w hx.2, stat_writeBus _ v hx.1]

/-- Neighbours are different addresses, and neither is STAT with the other LYC. -/
theorem neighbours (a : Word) : a + 1 ≠ a ∧ (a + 1 = 0xFF41 → a ≠ 0xFF45) ∧ (a = 0xFF41 → a + 1 ≠ 0xFF45) := by
  refine ⟨?_, ?_, ?_⟩ <;> intros <;> bv_omega

/-- What a store leaves unchanged outside the byte it stores. -/
theorem untouchedBut_writeBus (s : State) (a : Word) (v : Byte) : UntouchedBut [(a, v)] s (s.writeBus a v) where
  ime := by simp
  imePending := by simp
  halted := by simp
  fatal := by simp
  mode := by simp
  counter := by simp
  scanline := by simp
  screen := by simp
  memory := stores_writeBus s a v

/-- A 16-bit store (R60). -/
theorem untouchedBut_writeBus16 (s : State) (a v : Word) :
    UntouchedBut [(a, loByte v), (a + 1, hiByte v)] s (s.writeBus16 a v) where
  ime := by simp [State.writeBus16]
  imePending := by simp [State.writeBus16]
  halted := by simp [State.writeBus16]
  fatal := by simp [State.writeBus16]
  mode := by simp [State.writeBus16]
  counter := by simp [State.writeBus16]
  scanline := by simp [State.writeBus16]
  screen := by simp [State.writeBus16]
  memory := have h := neighbours a; stores_writeBus_two s _ _ h.1 h.2.1 h.2.2

section writeBus16
variable (s : State) (a v : Word)
@[simp] theorem writeBus16_regs : (s.writeBus16 a v).regs = s.regs := by simp [State.writeBus16]
@[simp] theorem writeBus16_flags : (s.writeBus16 a v).flags = s.flags := by simp [State.writeBus16]
@[simp] theorem writeBus16_pc : (s.writeBus16 a v).pc = s.pc := by simp [State.writeBus16]
@[simp] theorem writeBus16_sp : (s.writeBus16 a v).sp = s.sp := by simp [State.writeBus16]
@[simp] theorem writeBus16_fatal : (s.writeBus16 a v).fatal = s.fatal := by simp [State.writeBus16]
end writeBus16

section push16
variable (s : State) (v : Word)
@[simp] theorem push16_regs : (s.push16 v).regs = s.regs := by simp [State.push16]
@[simp] theorem push16_flags : (s.push16 v).flags = s.flags := by simp [State.push16]
@[simp] theorem push16_pc : (s.push16 v).pc = s.pc := by simp [State.push16]
@[simp] theorem push16_sp : (s.push16 v).sp = s.sp - 2 := by simp [State.push16]
@[simp] theorem push16_ime : (s.push16 v).ime = s.ime := by simp [State.push16]
@[simp] theorem push16_imePending : (s.push16 v).imePending = s.imePending := by simp [State.push16]
@[simp] theorem push16_halted : (s.push16 v).halted = s.halted := by simp [State.push16]
@[simp] theorem push16_fatal : (s.push16 v).fatal = s.fatal := by simp [State.push16]
@[simp] theorem push16_screen : (s.push16 v).screen = s.screen := by simp [State.push16]
@[simp] theorem push16_mode : (s.push16 v).lcd.mode = s.lcd.mode := by simp [State.push16]
@[simp] theorem push16_counter : (s.push16 v).lcd.counter = s.lcd.counter := by simp [State.push16]
@[simp] theorem push16_scanline : (s.push16 v).lcd.scanline = s.lcd.scanline := by simp [State.push16]
end push16

/-- Everything a push does (R18). -/
theorem untouchedBut_push16 (s : State) (v : Word) :
    UntouchedBut [(s.sp - 1, hiByte v), (s.sp - 2, loByte v)] s (s.push16 v) where
  ime := by simp
  imePending := by simp
  halted := by simp
  fatal := by simp
  mode := by simp
  counter := by simp
  scanline := by simp
  screen := by simp
  memory := by
    have h := neighbours (s.sp - 2)
    rw [show s.sp - 2 + 1 = s.sp - 1 by bv_omega] at h
    exact stores_writeBus_two s (hiByte v) (loByte v) h.1.symm h.2.2 h.2.1

/-- A plain address is neither LY nor STAT: a store there reads back. -/
theorem readsBack_plain (s : State) {a : Word} (v : Byte) (h : isPlain a = true) : s.readsBack a v = v := by
  have h41 : a ≠ 0xFF41 := by rintro rfl; revert h; decide
  have h44 : a ≠ 0xFF44 := by rintro rfl; revert h; decide
  rw [State.readsBack, if_neg h44, if_neg h41]

/-- A pop of a push to plain storage gives the value back (R18, R19). -/
theorem popValue_push16 (s : State) (v : Word) (h1 : isPlain (s.sp - 1) = true) (h2 : isPlain (s.sp - 2) = true) :
    (s.push16 v).popValue = v := by
  have h := (untouchedBut_push16 s v).memory.1
  have hh : (s.push16 v).readBus (s.sp - 1) = hiByte v := by
    rw [h (s.sp - 1, hiByte v) (by simp), readsBack_plain s _ h1]
  have hl : (s.push16 v).readBus (s.sp - 2) = loByte v := by
    rw [h (s.sp - 2, loByte v) (by simp), readsBack_plain s _ h2]
  rw [State.popValue, State.readBus16, push16_sp, show s.sp - 2 + 1 = s.sp - 1 by bv_omega, hh, hl, pack_hi_lo]

section dispatch
variable (k : IrqSource) (s : State)
@[simp] theorem dispatch_regs : (s.dispatch k).regs = s.regs := by simp [State.dispatch]
@[simp] theorem dispatch_flags : (s.dispatch k).flags = s.flags := by simp [State.dispatch]
@[simp] theorem dispatch_pc : (s.dispatch k).pc = k.vector := by simp [State.dispatch]
@[simp] theorem dispatch_sp : (s.dispatch k).sp = s.sp - 2 := by simp [State.dispatch]
@[simp] theorem dispatch_ime : (s.dispatch k).ime = false := by simp [State.dispatch]
@[simp] theorem dispatch_imePending : (s.dispatch k).imePending = false := by simp [State.dispatch]
@[simp] theorem dispatch_halted : (s.dispatch k).halted = s.halted := by simp [State.dispatch]
@[simp] theorem dispatch_fatal : (s.dispatch k).fatal = s.fatal := by simp [State.dispatch]
@[simp] theorem dispatch_screen : (s.dispatch k).screen = s.screen := by simp [State.dispatch]
@[simp] theorem dispatch_mode : (s.dispatch k).lcd.mode = s.lcd.mode := by simp [State.dispatch]
@[simp] theorem dispatch_counter : (s.dispatch k).lcd.counter = s.lcd.counter := by simp [State.dispatch]
@[simp] theorem dispatch_scanline : (s.dispatch k).lcd.scanline = s.lcd.scanline := by simp [State.dispatch]
end dispatch

/-- The selection answers nothing only when none of the five bits is set (R349). -/
theorem selectIrq_eq_none {p : Byte} : selectIrq p = none ↔ p &&& 0x1F = 0 := by
  revert p; decide

/-- The source the selection answers is pending, and no lower one is (R351). -/
theorem selectIrq_eq_some {p : Byte} {k : IrqSource} :
    selectIrq p = some k ↔ p.getLsbD k.bit = true ∧ ∀ j, j < k.bit → p.getLsbD j = false := by
  have h : ∀ (p : Byte) (k : Fin 5), (∀ j, j < k.val → p.getLsbD j = false) ↔ (∀ j : Fin 5, j.val < k.val → p.getLsbD j = false) :=
    fun p k => ⟨fun h j => h j, fun h j hj => h ⟨j, by omega⟩ hj⟩
  have h' : (∀ j, j < k.bit → p.getLsbD j = false) ↔ (∀ j : Fin 5, j.val < k.bit → p.getLsbD j = false) := by
    cases k
    · exact h p 0
    · exact h p 1
    · exact h p 2
    · exact h p 3
    · exact h p 4
  rw [h']
  cases k <;> revert p <;> decide

/-- Everything the interrupt check can do (R349). -/
theorem interruptCheck_cases (s : State) :
    (s.pendingIrqs = 0 ∧ s.interruptCheck = s) ∨
    (s.pendingIrqs ≠ 0 ∧ s.ime = false ∧ s.interruptCheck = { s with halted := false }) ∨
    (s.ime = true ∧ ∃ k, selectIrq s.pendingIrqs = some k ∧ s.interruptCheck = State.dispatch k { s with halted := false }) := by
  have hm : ∀ p : Byte, p &&& 0x1F &&& 0x1F = p &&& 0x1F := by decide
  have hz : selectIrq s.pendingIrqs = none ↔ s.pendingIrqs = 0 := by
    rw [selectIrq_eq_none]; simp only [State.pendingIrqs, Config.irqMask, hm]
  unfold State.interruptCheck
  cases hk : selectIrq s.pendingIrqs with
  | none => exact .inl ⟨hz.mp hk, rfl⟩
  | some k =>
    have hne : s.pendingIrqs ≠ 0 := fun h => by rw [hz.mpr h] at hk; cases hk
    cases hi : s.ime with
    | true => exact .inr (.inr ⟨rfl, k, rfl, by simp⟩)
    | false => exact .inr (.inl ⟨hne, rfl, by simp⟩)

section interruptCheck
variable (s : State)
@[simp] theorem interruptCheck_regs : s.interruptCheck.regs = s.regs := by
  rcases interruptCheck_cases s with ⟨-, h⟩ | ⟨-, -, h⟩ | ⟨-, k, -, h⟩ <;> simp [h]
@[simp] theorem interruptCheck_flags : s.interruptCheck.flags = s.flags := by
  rcases interruptCheck_cases s with ⟨-, h⟩ | ⟨-, -, h⟩ | ⟨-, k, -, h⟩ <;> simp [h]
@[simp] theorem interruptCheck_fatal : s.interruptCheck.fatal = s.fatal := by
  rcases interruptCheck_cases s with ⟨-, h⟩ | ⟨-, -, h⟩ | ⟨-, k, -, h⟩ <;> simp [h]
@[simp] theorem interruptCheck_screen : s.interruptCheck.screen = s.screen := by
  rcases interruptCheck_cases s with ⟨-, h⟩ | ⟨-, -, h⟩ | ⟨-, k, -, h⟩ <;> simp [h]
@[simp] theorem interruptCheck_mode : s.interruptCheck.lcd.mode = s.lcd.mode := by
  rcases interruptCheck_cases s with ⟨-, h⟩ | ⟨-, -, h⟩ | ⟨-, k, -, h⟩ <;> simp [h]
@[simp] theorem interruptCheck_counter : s.interruptCheck.lcd.counter = s.lcd.counter := by
  rcases interruptCheck_cases s with ⟨-, h⟩ | ⟨-, -, h⟩ | ⟨-, k, -, h⟩ <;> simp [h]
@[simp] theorem interruptCheck_scanline : s.interruptCheck.lcd.scanline = s.lcd.scanline := by
  rcases interruptCheck_cases s with ⟨-, h⟩ | ⟨-, -, h⟩ | ⟨-, k, -, h⟩ <;> simp [h]
end interruptCheck

/-- The interrupt check never sets IME (R349, R350). -/
theorem interruptCheck_ime {s : State} (h : s.interruptCheck.ime = true) : s.ime = true := by
  rcases interruptCheck_cases s with ⟨-, e⟩ | ⟨-, -, e⟩ | ⟨hi, -, -, -⟩
  · rwa [e] at h
  · rwa [e] at h
  · exact hi

/-- The end of an EI delay changes IME and the delay alone (R21, R341). -/
theorem promoteIme_frame (s : State) (b : Bool) :
    s.promoteIme b = { s with ime := (s.promoteIme b).ime, imePending := (s.promoteIme b).imePending } := by
  unfold State.promoteIme; cases b && s.imePending <;> rfl

/-- A tick that stays below the threshold moves the counter alone (R320). -/
theorem tick_below {s : State} {n : Nat} (h : s.lcd.counter + n < s.lcd.mode.threshold) : s.tick n = s.setCounter (s.lcd.counter + n) :=
  if_neg (by omega)

/-- A tick that reaches the threshold makes the mode's one transition from counter 0 (R320). -/
theorem tick_reached {s : State} {n : Nat} (h : s.lcd.mode.threshold ≤ s.lcd.counter + n) : s.tick n = (s.setCounter 0).modeTransition :=
  if_pos h

/-- Rendering writes the screen buffer alone (R325). -/
theorem renderScanline_frame (s : State) : s.renderScanline = { s with screen := s.renderScanline.screen } := by
  unfold State.renderScanline; cases s.lcd.control.getLsbD 0 <;> rfl

/-- Rendering does not look at the mode or the counter. -/
theorem renderColumns_congr (s : State) (m : LcdMode) (k n : Nat) :
    State.renderColumns { s with lcd := { s.lcd with mode := m, counter := k } } n = s.renderColumns n := by
  induction n with
  | zero => rfl
  | succ n ih => simp only [State.renderColumns, ih]; rfl

/-- A tick changes the LCD controller, the screen and IF alone (R320 to R325). -/
theorem tick_frame (s : State) (n : Nat) :
    s.tick n = { s with lcd := (s.tick n).lcd, screen := (s.tick n).screen, ifReg := (s.tick n).ifReg } := by
  have ht : ∀ s : State, s.modeTransition = { s with
      lcd := s.modeTransition.lcd, screen := s.modeTransition.screen, ifReg := s.modeTransition.ifReg } := by
    intro s
    unfold State.modeTransition
    cases s.lcd.mode with
    | searchingOam => rfl
    | transferring => rw [renderScanline_frame]
    | hblank =>
      simp only [State.leaveHblank]
      by_cases h : (s.lcd.scanline + 1).toNat = Config.vblankLine
      · rw [if_pos h]; rfl
      · rw [if_neg h]
    | vblank =>
      simp only [State.vblankLine]
      by_cases h : (s.lcd.scanline + 1).toNat > Config.lastLine
      · rw [if_pos h]
      · rw [if_neg h]
  unfold State.tick
  by_cases h : s.lcd.counter + n ≥ s.lcd.mode.threshold
  · rw [if_pos h, ht]; rfl
  · rw [if_neg h]; rfl

section tick
variable (s : State) (n : Nat)
@[simp] theorem tick_regs : (s.tick n).regs = s.regs := by rw [tick_frame]
@[simp] theorem tick_flags : (s.tick n).flags = s.flags := by rw [tick_frame]
@[simp] theorem tick_pc : (s.tick n).pc = s.pc := by rw [tick_frame]
@[simp] theorem tick_sp : (s.tick n).sp = s.sp := by rw [tick_frame]
@[simp] theorem tick_ime : (s.tick n).ime = s.ime := by rw [tick_frame]
@[simp] theorem tick_imePending : (s.tick n).imePending = s.imePending := by rw [tick_frame]
@[simp] theorem tick_halted : (s.tick n).halted = s.halted := by rw [tick_frame]
@[simp] theorem tick_fatal : (s.tick n).fatal = s.fatal := by rw [tick_frame]
@[simp] theorem tick_ie : (s.tick n).ie = s.ie := by rw [tick_frame]
@[simp] theorem tick_mem : (s.tick n).mem = s.mem := by rw [tick_frame]
end tick

section promoteIme
variable (s : State) (b : Bool)
@[simp] theorem promoteIme_regs : (s.promoteIme b).regs = s.regs := by rw [promoteIme_frame]
@[simp] theorem promoteIme_flags : (s.promoteIme b).flags = s.flags := by rw [promoteIme_frame]
@[simp] theorem promoteIme_pc : (s.promoteIme b).pc = s.pc := by rw [promoteIme_frame]
@[simp] theorem promoteIme_sp : (s.promoteIme b).sp = s.sp := by rw [promoteIme_frame]
@[simp] theorem promoteIme_halted : (s.promoteIme b).halted = s.halted := by rw [promoteIme_frame]
@[simp] theorem promoteIme_fatal : (s.promoteIme b).fatal = s.fatal := by rw [promoteIme_frame]
@[simp] theorem promoteIme_ie : (s.promoteIme b).ie = s.ie := by rw [promoteIme_frame]
@[simp] theorem promoteIme_ifReg : (s.promoteIme b).ifReg = s.ifReg := by rw [promoteIme_frame]
@[simp] theorem promoteIme_mem : (s.promoteIme b).mem = s.mem := by rw [promoteIme_frame]
@[simp] theorem promoteIme_lcd : (s.promoteIme b).lcd = s.lcd := by rw [promoteIme_frame]
@[simp] theorem promoteIme_screen : (s.promoteIme b).screen = s.screen := by rw [promoteIme_frame]
end promoteIme

/-- What follows an instruction raises no fatal condition (R342). -/
@[simp] theorem finishStep_fatal (s : State) (b : Bool) (n : Nat) : (s.finishStep b n).fatal = s.fatal := by
  simp [State.finishStep]

/-- Everything a step that answers a next state did (R340, R341, R345): it waited in HALT, it ran an instruction to its end, or its instruction
raised a fatal condition. -/
theorem step_cases {s t : State} (h : step s = .next t) : s.fatal = none ∧
    ((s.halted = true ∧ t = s.finishStep s.imePending Config.haltedCycles) ∨
     (s.halted = false ∧ ∃ u, exec s.fetch s = .next u ∧ u.fatal = none ∧ t = u.finishStep s.imePending (cycleCost s.fetch s)) ∨
     (s.halted = false ∧ exec s.fetch s = .next t ∧ t.fatal ≠ none)) := by
  unfold step sequenceStep at h
  cases hf : s.fatal with
  | some f => rw [hf] at h; cases h
  | none =>
    refine ⟨rfl, ?_⟩
    rw [hf] at h
    cases hh : s.halted with
    | true => rw [hh] at h; simp only [↓reduceIte, Host.Outcome.next.injEq] at h; exact .inl ⟨rfl, h.symm⟩
    | false =>
      simp only [hh, Bool.false_eq_true, ↓reduceIte] at h
      cases he : exec s.fetch s with
      | fault r => rw [he] at h; cases h
      | refused r => rw [he] at h; cases h
      | next u =>
        rw [he] at h
        cases hu : u.fatal with
        | none =>
          simp only [hu, Host.Outcome.next.injEq] at h
          exact .inr (.inl ⟨rfl, u, rfl, hu, h.symm⟩)
        | some f =>
          simp only [hu, Host.Outcome.next.injEq] at h
          subst h
          exact .inr (.inr ⟨rfl, rfl, by simp [hu]⟩)

end Sys2Proof.Machine
end

