-- ==== Sys2Proof/Laws/Frames.lean ====
section
/-! SUPPORT. What the common shapes of instruction leave unchanged, what decoding and the immediate bytes say, and what an instruction does to `fatal`. -/

namespace Sys2Proof.Machine

/-- A change of registers, flags, PC and SP alone leaves the rest untouched. -/
theorem untouched_of_eq {s t : State} (h : t = { s with regs := t.regs, flags := t.flags, pc := t.pc, sp := t.sp }) :
    Untouched s t := by
  rw [h]; exact ⟨rfl, rfl, rfl, rfl, rfl, rfl, rfl, rfl, fun _ => rfl⟩

/-- The same after a store. -/
theorem UntouchedBut.withCpu {s t : State} {cells : List (Word × Byte)} (h : UntouchedBut cells s t) (g : Regs) (f : Flags)
    (p q : Word) : UntouchedBut cells s { t with regs := g, flags := f, pc := p, sp := q } :=
  ⟨h.ime, h.imePending, h.halted, h.fatal, h.mode, h.counter, h.scanline, h.screen, h.memory⟩

/-- A register write changes no other register. -/
theorem sameRegs_setReg (s : State) (r : R8) (v : Byte) : SameRegs [r] s (s.setReg r v) := by
  intro q hq
  have h : q ≠ r := by simpa using hq
  simp [h]

/-- A pair write changes the pair's registers alone. -/
theorem sameRegs_setPair (s : State) (p : Pair) (v : Word) : SameRegs p.regs s (s.setPair p v) := by
  intro r hr
  cases p <;> cases r <;> first | rfl | exact absurd (by simp [Pair.regs]) hr

/-- A stack pair write changes the pair's registers alone. -/
theorem sameRegs_setStackPair (s : State) (q : StackPair) (v : Word) : SameRegs q.regs s (s.setStackPair q v) := by
  intro r hr
  cases q <;> cases r <;> first | rfl | exact absurd (by simp [StackPair.regs]) hr

/-- An instruction that writes one register. -/
theorem wroteReg_setReg (s : State) (r : R8) (v : Byte) (n : Word) : WroteReg r v n s ((s.setReg r v).advance n) :=
  ⟨(reg_setReg s r r v).trans (if_pos rfl), sameRegs_setReg s r v, rfl, rfl, rfl, untouched_of_eq rfl⟩

/-- An instruction that writes one register and the flags. -/
theorem wroteRegFlags_putReg (s : State) (r : R8) (p : ByteFlags) (n : Word) :
    WroteRegFlags r p.1 p.2 n s ((s.putReg r p).advance n) :=
  ⟨(reg_setReg s r r p.1).trans (if_pos rfl), sameRegs_setReg s r p.1, rfl, rfl, rfl, untouched_of_eq rfl⟩

/-- An instruction that writes the flags. -/
theorem wroteFlags_setFlags (s : State) (f : Flags) (n : Word) : WroteFlags f n s ((s.setFlags f).advance n) :=
  ⟨fun _ _ => rfl, rfl, rfl, rfl, untouched_of_eq rfl⟩

/-- An instruction that stores one byte. -/
theorem wroteByte_writeBus (s : State) (a : Word) (v : Byte) (n : Word) :
    WroteByte a v s.flags n s ((s.writeBus a v).advance n) :=
  ⟨fun r _ => writeBus_reg s a v r, writeBus_flags s a v, by simp, writeBus_sp s a v, (untouchedBut_writeBus s a v).withCpu _ _ _ _⟩

/-- An instruction that stores one byte at HL and writes the flags. -/
theorem wroteByte_putAtHl (s : State) (p : ByteFlags) (n : Word) :
    WroteByte s.hl p.1 p.2 n s ((s.putAtHl p).advance n) :=
  ⟨fun r _ => writeBus_reg s s.hl p.1 r, rfl, congrArg (· + n) (writeBus_pc s s.hl p.1), writeBus_sp s s.hl p.1,
    (untouchedBut_writeBus s s.hl p.1).withCpu _ _ _ _⟩

/-- A jump. -/
theorem wentTo_jump (s : State) (a : Word) : WentTo a s (s.jump a) := ⟨rfl, fun _ _ => rfl, rfl, rfl, untouched_of_eq rfl⟩

/-- An instruction that does nothing but end. -/
theorem wentTo_advance (s : State) (n : Word) : WentTo (s.pc + n) s (s.advance n) :=
  ⟨rfl, fun _ _ => rfl, rfl, rfl, untouched_of_eq rfl⟩

/-- A push and a jump. -/
theorem pushedAndWentTo_push16 (s : State) (v a : Word) : PushedAndWentTo v a s ((s.push16 v).jump a) :=
  ⟨rfl, push16_sp s v, fun r _ => by simp [State.reg], by simp, (untouchedBut_push16 s v).withCpu _ _ _ _⟩

/-- The condition test, in the form the statements use (R95). -/
theorem cond_eq_taken (f : Flags) (cc : Cond) : f.cond cc = taken cc f := by cases cc <;> rfl

/-- The bytes of an immediate given as its two halves (R98). -/
theorem immBytes_append (hi lo : Byte) : immBytes (hi ++ lo) = [lo, hi] := by
  have h1 := loByte_pack hi lo
  have h2 := hiByte_pack hi lo
  simp only [loByte, hiByte, pack] at h1 h2
  simp only [immBytes, h1, h2]

/-- An immediate is its two bytes (R98). -/
theorem immBytes_join (nn : Word) : (nn.extractLsb' 8 8 ++ nn.extractLsb' 0 8 : Word) = nn := pack_hi_lo nn

/-- Decoding, given the instruction that the first three bytes select. -/
theorem decode_cons {b0 : Byte} {rest : List Byte} {i : Instr} (h : decodeBytes b0 (rest.getD 0 0) (rest.getD 1 0) = i)
    (hl : i.length ≤ rest.length + 1) : decode (b0 :: rest) = .ok i (rest.drop (i.length - 1)) := by
  unfold decode; simp only [h]; rw [if_pos hl]

/-- What the fetch decodes is what `decode` reads from the three bytes at PC (R90). -/
theorem fetch_of_decode {s : State} {i : Instr} {rest : List Byte}
    (h : decode [s.readBus s.pc, s.readBus (s.pc + 1), s.readBus (s.pc + 2)] = .ok i rest) : s.fetch = i := by
  unfold decode at h
  simp only at h
  split at h
  · cases h; rfl
  · split at h <;> cases h

/-- Every instruction answers a next state; what it does to `fatal` is what `Instr.raises` says. -/
theorem exec_answers (i : Instr) (s : State) :
    ∃ t, exec i s = .next t ∧ (i.raises = none → t.fatal = s.fatal) ∧
      ∀ f, i.raises = some f → t = { s with fatal := some f } := by
  cases i with
  | prefixByte =>
    have h : ∃ t, execPrefixByte s = .next t ∧ t.fatal = s.fatal := by
      unfold execPrefixByte
      generalize extOpOf (s.readBus (s.pc + 1)) = x
      generalize r8OfCode (lowField (s.readBus (s.pc + 1))) = y
      cases x <;> cases y <;> exact ⟨_, rfl, by simp [State.putReg, State.putAtHl, State.setAtHl]⟩
    obtain ⟨t, h1, h2⟩ := h
    exact ⟨t, h1, fun _ => h2, fun f h => by cases h⟩
  | jpCcNn cc _ | callCcNn cc _ | jrCcE cc _ | retCc cc => exact ⟨_, rfl, fun _ => by split <;> simp, fun f h => by cases h⟩
  | ldRrNn p _ | incRr p | decRr p => cases p <;> exact ⟨_, rfl, fun _ => rfl, fun f h => by cases h⟩
  | popQq q => cases q <;> exact ⟨_, rfl, fun _ => rfl, fun f h => by cases h⟩
  | stop | illegalD3 | illegalDB | illegalDD | illegalE3 | illegalE4 | illegalEB | illegalEC | illegalED | illegalF4 | illegalFC
  | illegalFD =>
    exact ⟨_, rfl, fun h => by simp [Instr.raises] at h, fun f h => by simp only [Instr.raises, Option.some.injEq] at h; subst h; rfl⟩
  | _ =>
    exact ⟨_, rfl, fun _ => by simp [State.putReg, State.putAtHl, State.setAtHl, State.returnFromIrq], fun f h => by cases h⟩

end Sys2Proof.Machine
end

