-- ==== Sys2Proof/Laws/PerInstr.lean ====
section
/-! SUPPORT. Per instruction: the family `EncodedLength`, an instruction's encoding has the length the spec gives it, 1 to 3 bytes (30_encoding.md R91). -/

namespace Sys2Proof.Laws

/-- The bytes of `i` are `i.length` many, and that is 1, 2 or 3 (R91). -/
def EncodedLength.Statement (i : Instr) : Prop := (encode i).length = i.length ∧ 1 ≤ i.length ∧ i.length ≤ 3

theorem EncodedLength.nop : EncodedLength.Statement (.nop) := ⟨rfl, Nat.le_of_ble_eq_true rfl, Nat.le_of_ble_eq_true rfl⟩
theorem EncodedLength.ldRrNn (p : Pair) (nn : Word) : EncodedLength.Statement (.ldRrNn p nn) := ⟨rfl, Nat.le_of_ble_eq_true rfl, Nat.le_of_ble_eq_true rfl⟩
theorem EncodedLength.ldBcA : EncodedLength.Statement (.ldBcA) := ⟨rfl, Nat.le_of_ble_eq_true rfl, Nat.le_of_ble_eq_true rfl⟩
theorem EncodedLength.ldDeA : EncodedLength.Statement (.ldDeA) := ⟨rfl, Nat.le_of_ble_eq_true rfl, Nat.le_of_ble_eq_true rfl⟩
theorem EncodedLength.ldHlIncA : EncodedLength.Statement (.ldHlIncA) := ⟨rfl, Nat.le_of_ble_eq_true rfl, Nat.le_of_ble_eq_true rfl⟩
theorem EncodedLength.ldHlDecA : EncodedLength.Statement (.ldHlDecA) := ⟨rfl, Nat.le_of_ble_eq_true rfl, Nat.le_of_ble_eq_true rfl⟩
theorem EncodedLength.incRr (p : Pair) : EncodedLength.Statement (.incRr p) := ⟨rfl, Nat.le_of_ble_eq_true rfl, Nat.le_of_ble_eq_true rfl⟩
theorem EncodedLength.incR (r : R8) : EncodedLength.Statement (.incR r) := ⟨rfl, Nat.le_of_ble_eq_true rfl, Nat.le_of_ble_eq_true rfl⟩
theorem EncodedLength.incHl : EncodedLength.Statement (.incHl) := ⟨rfl, Nat.le_of_ble_eq_true rfl, Nat.le_of_ble_eq_true rfl⟩
theorem EncodedLength.decR (r : R8) : EncodedLength.Statement (.decR r) := ⟨rfl, Nat.le_of_ble_eq_true rfl, Nat.le_of_ble_eq_true rfl⟩
theorem EncodedLength.decHl : EncodedLength.Statement (.decHl) := ⟨rfl, Nat.le_of_ble_eq_true rfl, Nat.le_of_ble_eq_true rfl⟩
theorem EncodedLength.ldRN (r : R8) (n : Byte) : EncodedLength.Statement (.ldRN r n) := ⟨rfl, Nat.le_of_ble_eq_true rfl, Nat.le_of_ble_eq_true rfl⟩
theorem EncodedLength.ldHlN (n : Byte) : EncodedLength.Statement (.ldHlN n) := ⟨rfl, Nat.le_of_ble_eq_true rfl, Nat.le_of_ble_eq_true rfl⟩
theorem EncodedLength.rlca : EncodedLength.Statement (.rlca) := ⟨rfl, Nat.le_of_ble_eq_true rfl, Nat.le_of_ble_eq_true rfl⟩
theorem EncodedLength.ldNnSp (nn : Word) : EncodedLength.Statement (.ldNnSp nn) := ⟨rfl, Nat.le_of_ble_eq_true rfl, Nat.le_of_ble_eq_true rfl⟩
theorem EncodedLength.addHlRr (p : Pair) : EncodedLength.Statement (.addHlRr p) := ⟨rfl, Nat.le_of_ble_eq_true rfl, Nat.le_of_ble_eq_true rfl⟩
theorem EncodedLength.ldABc : EncodedLength.Statement (.ldABc) := ⟨rfl, Nat.le_of_ble_eq_true rfl, Nat.le_of_ble_eq_true rfl⟩
theorem EncodedLength.ldADe : EncodedLength.Statement (.ldADe) := ⟨rfl, Nat.le_of_ble_eq_true rfl, Nat.le_of_ble_eq_true rfl⟩
theorem EncodedLength.ldAHlInc : EncodedLength.Statement (.ldAHlInc) := ⟨rfl, Nat.le_of_ble_eq_true rfl, Nat.le_of_ble_eq_true rfl⟩
theorem EncodedLength.ldAHlDec : EncodedLength.Statement (.ldAHlDec) := ⟨rfl, Nat.le_of_ble_eq_true rfl, Nat.le_of_ble_eq_true rfl⟩
theorem EncodedLength.decRr (p : Pair) : EncodedLength.Statement (.decRr p) := ⟨rfl, Nat.le_of_ble_eq_true rfl, Nat.le_of_ble_eq_true rfl⟩
theorem EncodedLength.rrca : EncodedLength.Statement (.rrca) := ⟨rfl, Nat.le_of_ble_eq_true rfl, Nat.le_of_ble_eq_true rfl⟩
theorem EncodedLength.stop : EncodedLength.Statement (.stop) := ⟨rfl, Nat.le_of_ble_eq_true rfl, Nat.le_of_ble_eq_true rfl⟩
theorem EncodedLength.rla : EncodedLength.Statement (.rla) := ⟨rfl, Nat.le_of_ble_eq_true rfl, Nat.le_of_ble_eq_true rfl⟩
theorem EncodedLength.jrE (e : Byte) : EncodedLength.Statement (.jrE e) := ⟨rfl, Nat.le_of_ble_eq_true rfl, Nat.le_of_ble_eq_true rfl⟩
theorem EncodedLength.rra : EncodedLength.Statement (.rra) := ⟨rfl, Nat.le_of_ble_eq_true rfl, Nat.le_of_ble_eq_true rfl⟩
theorem EncodedLength.jrCcE (cc : Cond) (e : Byte) : EncodedLength.Statement (.jrCcE cc e) := ⟨rfl, Nat.le_of_ble_eq_true rfl, Nat.le_of_ble_eq_true rfl⟩
theorem EncodedLength.daa : EncodedLength.Statement (.daa) := ⟨rfl, Nat.le_of_ble_eq_true rfl, Nat.le_of_ble_eq_true rfl⟩
theorem EncodedLength.cpl : EncodedLength.Statement (.cpl) := ⟨rfl, Nat.le_of_ble_eq_true rfl, Nat.le_of_ble_eq_true rfl⟩
theorem EncodedLength.scf : EncodedLength.Statement (.scf) := ⟨rfl, Nat.le_of_ble_eq_true rfl, Nat.le_of_ble_eq_true rfl⟩
theorem EncodedLength.ccf : EncodedLength.Statement (.ccf) := ⟨rfl, Nat.le_of_ble_eq_true rfl, Nat.le_of_ble_eq_true rfl⟩
theorem EncodedLength.ldRR (dst : R8) (src : R8) : EncodedLength.Statement (.ldRR dst src) := ⟨rfl, Nat.le_of_ble_eq_true rfl, Nat.le_of_ble_eq_true rfl⟩
theorem EncodedLength.ldRHl (r : R8) : EncodedLength.Statement (.ldRHl r) := ⟨rfl, Nat.le_of_ble_eq_true rfl, Nat.le_of_ble_eq_true rfl⟩
theorem EncodedLength.ldHlR (r : R8) : EncodedLength.Statement (.ldHlR r) := ⟨rfl, Nat.le_of_ble_eq_true rfl, Nat.le_of_ble_eq_true rfl⟩
theorem EncodedLength.halt : EncodedLength.Statement (.halt) := ⟨rfl, Nat.le_of_ble_eq_true rfl, Nat.le_of_ble_eq_true rfl⟩
theorem EncodedLength.addAR (r : R8) : EncodedLength.Statement (.addAR r) := ⟨rfl, Nat.le_of_ble_eq_true rfl, Nat.le_of_ble_eq_true rfl⟩
theorem EncodedLength.addAHl : EncodedLength.Statement (.addAHl) := ⟨rfl, Nat.le_of_ble_eq_true rfl, Nat.le_of_ble_eq_true rfl⟩
theorem EncodedLength.addAN (n : Byte) : EncodedLength.Statement (.addAN n) := ⟨rfl, Nat.le_of_ble_eq_true rfl, Nat.le_of_ble_eq_true rfl⟩
theorem EncodedLength.adcAR (r : R8) : EncodedLength.Statement (.adcAR r) := ⟨rfl, Nat.le_of_ble_eq_true rfl, Nat.le_of_ble_eq_true rfl⟩
theorem EncodedLength.adcAHl : EncodedLength.Statement (.adcAHl) := ⟨rfl, Nat.le_of_ble_eq_true rfl, Nat.le_of_ble_eq_true rfl⟩
theorem EncodedLength.adcAN (n : Byte) : EncodedLength.Statement (.adcAN n) := ⟨rfl, Nat.le_of_ble_eq_true rfl, Nat.le_of_ble_eq_true rfl⟩
theorem EncodedLength.subR (r : R8) : EncodedLength.Statement (.subR r) := ⟨rfl, Nat.le_of_ble_eq_true rfl, Nat.le_of_ble_eq_true rfl⟩
theorem EncodedLength.subHl : EncodedLength.Statement (.subHl) := ⟨rfl, Nat.le_of_ble_eq_true rfl, Nat.le_of_ble_eq_true rfl⟩
theorem EncodedLength.subN (n : Byte) : EncodedLength.Statement (.subN n) := ⟨rfl, Nat.le_of_ble_eq_true rfl, Nat.le_of_ble_eq_true rfl⟩
theorem EncodedLength.sbcAR (r : R8) : EncodedLength.Statement (.sbcAR r) := ⟨rfl, Nat.le_of_ble_eq_true rfl, Nat.le_of_ble_eq_true rfl⟩
theorem EncodedLength.sbcAHl : EncodedLength.Statement (.sbcAHl) := ⟨rfl, Nat.le_of_ble_eq_true rfl, Nat.le_of_ble_eq_true rfl⟩
theorem EncodedLength.sbcAN (n : Byte) : EncodedLength.Statement (.sbcAN n) := ⟨rfl, Nat.le_of_ble_eq_true rfl, Nat.le_of_ble_eq_true rfl⟩
theorem EncodedLength.andR (r : R8) : EncodedLength.Statement (.andR r) := ⟨rfl, Nat.le_of_ble_eq_true rfl, Nat.le_of_ble_eq_true rfl⟩
theorem EncodedLength.andHl : EncodedLength.Statement (.andHl) := ⟨rfl, Nat.le_of_ble_eq_true rfl, Nat.le_of_ble_eq_true rfl⟩
theorem EncodedLength.andN (n : Byte) : EncodedLength.Statement (.andN n) := ⟨rfl, Nat.le_of_ble_eq_true rfl, Nat.le_of_ble_eq_true rfl⟩
theorem EncodedLength.xorR (r : R8) : EncodedLength.Statement (.xorR r) := ⟨rfl, Nat.le_of_ble_eq_true rfl, Nat.le_of_ble_eq_true rfl⟩
theorem EncodedLength.xorHl : EncodedLength.Statement (.xorHl) := ⟨rfl, Nat.le_of_ble_eq_true rfl, Nat.le_of_ble_eq_true rfl⟩
theorem EncodedLength.xorN (n : Byte) : EncodedLength.Statement (.xorN n) := ⟨rfl, Nat.le_of_ble_eq_true rfl, Nat.le_of_ble_eq_true rfl⟩
theorem EncodedLength.orR (r : R8) : EncodedLength.Statement (.orR r) := ⟨rfl, Nat.le_of_ble_eq_true rfl, Nat.le_of_ble_eq_true rfl⟩
theorem EncodedLength.orHl : EncodedLength.Statement (.orHl) := ⟨rfl, Nat.le_of_ble_eq_true rfl, Nat.le_of_ble_eq_true rfl⟩
theorem EncodedLength.orN (n : Byte) : EncodedLength.Statement (.orN n) := ⟨rfl, Nat.le_of_ble_eq_true rfl, Nat.le_of_ble_eq_true rfl⟩
theorem EncodedLength.cpR (r : R8) : EncodedLength.Statement (.cpR r) := ⟨rfl, Nat.le_of_ble_eq_true rfl, Nat.le_of_ble_eq_true rfl⟩
theorem EncodedLength.cpHl : EncodedLength.Statement (.cpHl) := ⟨rfl, Nat.le_of_ble_eq_true rfl, Nat.le_of_ble_eq_true rfl⟩
theorem EncodedLength.cpN (n : Byte) : EncodedLength.Statement (.cpN n) := ⟨rfl, Nat.le_of_ble_eq_true rfl, Nat.le_of_ble_eq_true rfl⟩
theorem EncodedLength.retCc (cc : Cond) : EncodedLength.Statement (.retCc cc) := ⟨rfl, Nat.le_of_ble_eq_true rfl, Nat.le_of_ble_eq_true rfl⟩
theorem EncodedLength.popQq (q : StackPair) : EncodedLength.Statement (.popQq q) := ⟨rfl, Nat.le_of_ble_eq_true rfl, Nat.le_of_ble_eq_true rfl⟩
theorem EncodedLength.jpCcNn (cc : Cond) (nn : Word) : EncodedLength.Statement (.jpCcNn cc nn) := ⟨rfl, Nat.le_of_ble_eq_true rfl, Nat.le_of_ble_eq_true rfl⟩
theorem EncodedLength.jpNn (nn : Word) : EncodedLength.Statement (.jpNn nn) := ⟨rfl, Nat.le_of_ble_eq_true rfl, Nat.le_of_ble_eq_true rfl⟩
theorem EncodedLength.callCcNn (cc : Cond) (nn : Word) : EncodedLength.Statement (.callCcNn cc nn) := ⟨rfl, Nat.le_of_ble_eq_true rfl, Nat.le_of_ble_eq_true rfl⟩
theorem EncodedLength.pushQq (q : StackPair) : EncodedLength.Statement (.pushQq q) := ⟨rfl, Nat.le_of_ble_eq_true rfl, Nat.le_of_ble_eq_true rfl⟩
theorem EncodedLength.rstT (t : BitVec 3) : EncodedLength.Statement (.rstT t) := ⟨rfl, Nat.le_of_ble_eq_true rfl, Nat.le_of_ble_eq_true rfl⟩
theorem EncodedLength.ret : EncodedLength.Statement (.ret) := ⟨rfl, Nat.le_of_ble_eq_true rfl, Nat.le_of_ble_eq_true rfl⟩
theorem EncodedLength.prefixByte : EncodedLength.Statement (.prefixByte) := ⟨rfl, Nat.le_of_ble_eq_true rfl, Nat.le_of_ble_eq_true rfl⟩
theorem EncodedLength.callNn (nn : Word) : EncodedLength.Statement (.callNn nn) := ⟨rfl, Nat.le_of_ble_eq_true rfl, Nat.le_of_ble_eq_true rfl⟩
theorem EncodedLength.reti : EncodedLength.Statement (.reti) := ⟨rfl, Nat.le_of_ble_eq_true rfl, Nat.le_of_ble_eq_true rfl⟩
theorem EncodedLength.ldhNA (n : Byte) : EncodedLength.Statement (.ldhNA n) := ⟨rfl, Nat.le_of_ble_eq_true rfl, Nat.le_of_ble_eq_true rfl⟩
theorem EncodedLength.ldhCA : EncodedLength.Statement (.ldhCA) := ⟨rfl, Nat.le_of_ble_eq_true rfl, Nat.le_of_ble_eq_true rfl⟩
theorem EncodedLength.addSpE (e : Byte) : EncodedLength.Statement (.addSpE e) := ⟨rfl, Nat.le_of_ble_eq_true rfl, Nat.le_of_ble_eq_true rfl⟩
theorem EncodedLength.jpHl : EncodedLength.Statement (.jpHl) := ⟨rfl, Nat.le_of_ble_eq_true rfl, Nat.le_of_ble_eq_true rfl⟩
theorem EncodedLength.ldNnA (nn : Word) : EncodedLength.Statement (.ldNnA nn) := ⟨rfl, Nat.le_of_ble_eq_true rfl, Nat.le_of_ble_eq_true rfl⟩
theorem EncodedLength.ldhAN (n : Byte) : EncodedLength.Statement (.ldhAN n) := ⟨rfl, Nat.le_of_ble_eq_true rfl, Nat.le_of_ble_eq_true rfl⟩
theorem EncodedLength.ldhAC : EncodedLength.Statement (.ldhAC) := ⟨rfl, Nat.le_of_ble_eq_true rfl, Nat.le_of_ble_eq_true rfl⟩
theorem EncodedLength.di : EncodedLength.Statement (.di) := ⟨rfl, Nat.le_of_ble_eq_true rfl, Nat.le_of_ble_eq_true rfl⟩
theorem EncodedLength.ldHlSpE (e : Byte) : EncodedLength.Statement (.ldHlSpE e) := ⟨rfl, Nat.le_of_ble_eq_true rfl, Nat.le_of_ble_eq_true rfl⟩
theorem EncodedLength.ldSpHl : EncodedLength.Statement (.ldSpHl) := ⟨rfl, Nat.le_of_ble_eq_true rfl, Nat.le_of_ble_eq_true rfl⟩
theorem EncodedLength.ldANn (nn : Word) : EncodedLength.Statement (.ldANn nn) := ⟨rfl, Nat.le_of_ble_eq_true rfl, Nat.le_of_ble_eq_true rfl⟩
theorem EncodedLength.ei : EncodedLength.Statement (.ei) := ⟨rfl, Nat.le_of_ble_eq_true rfl, Nat.le_of_ble_eq_true rfl⟩
theorem EncodedLength.illegalD3 : EncodedLength.Statement (.illegalD3) := ⟨rfl, Nat.le_of_ble_eq_true rfl, Nat.le_of_ble_eq_true rfl⟩
theorem EncodedLength.illegalDB : EncodedLength.Statement (.illegalDB) := ⟨rfl, Nat.le_of_ble_eq_true rfl, Nat.le_of_ble_eq_true rfl⟩
theorem EncodedLength.illegalDD : EncodedLength.Statement (.illegalDD) := ⟨rfl, Nat.le_of_ble_eq_true rfl, Nat.le_of_ble_eq_true rfl⟩
theorem EncodedLength.illegalE3 : EncodedLength.Statement (.illegalE3) := ⟨rfl, Nat.le_of_ble_eq_true rfl, Nat.le_of_ble_eq_true rfl⟩
theorem EncodedLength.illegalE4 : EncodedLength.Statement (.illegalE4) := ⟨rfl, Nat.le_of_ble_eq_true rfl, Nat.le_of_ble_eq_true rfl⟩
theorem EncodedLength.illegalEB : EncodedLength.Statement (.illegalEB) := ⟨rfl, Nat.le_of_ble_eq_true rfl, Nat.le_of_ble_eq_true rfl⟩
theorem EncodedLength.illegalEC : EncodedLength.Statement (.illegalEC) := ⟨rfl, Nat.le_of_ble_eq_true rfl, Nat.le_of_ble_eq_true rfl⟩
theorem EncodedLength.illegalED : EncodedLength.Statement (.illegalED) := ⟨rfl, Nat.le_of_ble_eq_true rfl, Nat.le_of_ble_eq_true rfl⟩
theorem EncodedLength.illegalF4 : EncodedLength.Statement (.illegalF4) := ⟨rfl, Nat.le_of_ble_eq_true rfl, Nat.le_of_ble_eq_true rfl⟩
theorem EncodedLength.illegalFC : EncodedLength.Statement (.illegalFC) := ⟨rfl, Nat.le_of_ble_eq_true rfl, Nat.le_of_ble_eq_true rfl⟩
theorem EncodedLength.illegalFD : EncodedLength.Statement (.illegalFD) := ⟨rfl, Nat.le_of_ble_eq_true rfl, Nat.le_of_ble_eq_true rfl⟩
theorem EncodedLength.rlcR (r : R8) : EncodedLength.Statement (.rlcR r) := ⟨rfl, Nat.le_of_ble_eq_true rfl, Nat.le_of_ble_eq_true rfl⟩
theorem EncodedLength.rlcHl : EncodedLength.Statement (.rlcHl) := ⟨rfl, Nat.le_of_ble_eq_true rfl, Nat.le_of_ble_eq_true rfl⟩
theorem EncodedLength.rrcR (r : R8) : EncodedLength.Statement (.rrcR r) := ⟨rfl, Nat.le_of_ble_eq_true rfl, Nat.le_of_ble_eq_true rfl⟩
theorem EncodedLength.rrcHl : EncodedLength.Statement (.rrcHl) := ⟨rfl, Nat.le_of_ble_eq_true rfl, Nat.le_of_ble_eq_true rfl⟩
theorem EncodedLength.rlR (r : R8) : EncodedLength.Statement (.rlR r) := ⟨rfl, Nat.le_of_ble_eq_true rfl, Nat.le_of_ble_eq_true rfl⟩
theorem EncodedLength.rlHl : EncodedLength.Statement (.rlHl) := ⟨rfl, Nat.le_of_ble_eq_true rfl, Nat.le_of_ble_eq_true rfl⟩
theorem EncodedLength.rrR (r : R8) : EncodedLength.Statement (.rrR r) := ⟨rfl, Nat.le_of_ble_eq_true rfl, Nat.le_of_ble_eq_true rfl⟩
theorem EncodedLength.rrHl : EncodedLength.Statement (.rrHl) := ⟨rfl, Nat.le_of_ble_eq_true rfl, Nat.le_of_ble_eq_true rfl⟩
theorem EncodedLength.slaR (r : R8) : EncodedLength.Statement (.slaR r) := ⟨rfl, Nat.le_of_ble_eq_true rfl, Nat.le_of_ble_eq_true rfl⟩
theorem EncodedLength.slaHl : EncodedLength.Statement (.slaHl) := ⟨rfl, Nat.le_of_ble_eq_true rfl, Nat.le_of_ble_eq_true rfl⟩
theorem EncodedLength.sraR (r : R8) : EncodedLength.Statement (.sraR r) := ⟨rfl, Nat.le_of_ble_eq_true rfl, Nat.le_of_ble_eq_true rfl⟩
theorem EncodedLength.sraHl : EncodedLength.Statement (.sraHl) := ⟨rfl, Nat.le_of_ble_eq_true rfl, Nat.le_of_ble_eq_true rfl⟩
theorem EncodedLength.swapR (r : R8) : EncodedLength.Statement (.swapR r) := ⟨rfl, Nat.le_of_ble_eq_true rfl, Nat.le_of_ble_eq_true rfl⟩
theorem EncodedLength.swapHl : EncodedLength.Statement (.swapHl) := ⟨rfl, Nat.le_of_ble_eq_true rfl, Nat.le_of_ble_eq_true rfl⟩
theorem EncodedLength.srlR (r : R8) : EncodedLength.Statement (.srlR r) := ⟨rfl, Nat.le_of_ble_eq_true rfl, Nat.le_of_ble_eq_true rfl⟩
theorem EncodedLength.srlHl : EncodedLength.Statement (.srlHl) := ⟨rfl, Nat.le_of_ble_eq_true rfl, Nat.le_of_ble_eq_true rfl⟩
theorem EncodedLength.bitR (b : BitVec 3) (r : R8) : EncodedLength.Statement (.bitR b r) := ⟨rfl, Nat.le_of_ble_eq_true rfl, Nat.le_of_ble_eq_true rfl⟩
theorem EncodedLength.bitHl (b : BitVec 3) : EncodedLength.Statement (.bitHl b) := ⟨rfl, Nat.le_of_ble_eq_true rfl, Nat.le_of_ble_eq_true rfl⟩
theorem EncodedLength.resR (b : BitVec 3) (r : R8) : EncodedLength.Statement (.resR b r) := ⟨rfl, Nat.le_of_ble_eq_true rfl, Nat.le_of_ble_eq_true rfl⟩
theorem EncodedLength.resHl (b : BitVec 3) : EncodedLength.Statement (.resHl b) := ⟨rfl, Nat.le_of_ble_eq_true rfl, Nat.le_of_ble_eq_true rfl⟩
theorem EncodedLength.setR (b : BitVec 3) (r : R8) : EncodedLength.Statement (.setR b r) := ⟨rfl, Nat.le_of_ble_eq_true rfl, Nat.le_of_ble_eq_true rfl⟩
theorem EncodedLength.setHl (b : BitVec 3) : EncodedLength.Statement (.setHl b) := ⟨rfl, Nat.le_of_ble_eq_true rfl, Nat.le_of_ble_eq_true rfl⟩

end Sys2Proof.Laws
end

