-- ==== Sys2Proof/Tests/Slice0.lean ====
section
/-! SUPPORT. The model's own tests: well-formedness, decoding of words written out from the spec's tables, one step per instruction with the results
of spec 95_test_vectors.md (each named by its vector), rejections, and a witness for every statement that has hypotheses. -/

namespace Sys2Proof.Tests

open Machine

/-- The prefix byte alone is no instruction (30_encoding.md R90). -/
theorem test_wellFormed_refuses_prefixByte : Instr.wellFormed .prefixByte = false := by decide

theorem test_wellFormed_takes_instructions :
    Instr.wellFormed (.ldRR .b .b) = true ∧ Instr.wellFormed .illegalFD = true ∧ Instr.wellFormed (.bitR 7 .h) = true := by decide

/-- 30_encoding.md R101, R102: bytes written out from the tables. -/
theorem test_decode_load8 :
    decode [0b00000010] = .ok .ldBcA [] ∧
    decode [0b00010010] = .ok .ldDeA [] ∧
    decode [0b00100010] = .ok .ldHlIncA [] ∧
    decode [0b00110010] = .ok .ldHlDecA [] ∧
    decode [0b00_011_110, 0x5A] = .ok (.ldRN .e 0x5A) [] ∧
    decode [0b00110110, 0x5A] = .ok (.ldHlN 0x5A) [] ∧
    decode [0b00001010] = .ok .ldABc [] ∧
    decode [0b00011010] = .ok .ldADe [] ∧
    decode [0b00101010] = .ok .ldAHlInc [] ∧
    decode [0b00111010] = .ok .ldAHlDec [] ∧
    decode [0b01_011_111] = .ok (.ldRR .e .a) [] ∧
    decode [0b01_011_110] = .ok (.ldRHl .e) [] ∧
    decode [0b01110_111] = .ok (.ldHlR .a) [] ∧
    decode [0b11100000, 0x5A] = .ok (.ldhNA 0x5A) [] ∧
    decode [0b11100010] = .ok .ldhCA [] ∧
    decode [0b11101010, 0x34, 0x12] = .ok (.ldNnA 0x1234) [] ∧
    decode [0b11110000, 0x5A] = .ok (.ldhAN 0x5A) [] ∧
    decode [0b11110010] = .ok .ldhAC [] ∧
    decode [0b11111010, 0x34, 0x12] = .ok (.ldANn 0x1234) [] := by decide

/-- 30_encoding.md R101, R102: bytes written out from the tables. -/
theorem test_decode_load16_stack :
    decode [0b00_11_0001, 0x34, 0x12] = .ok (.ldRrNn .sp 0x1234) [] ∧
    decode [0b00001000, 0x34, 0x12] = .ok (.ldNnSp 0x1234) [] ∧
    decode [0b11_11_0001] = .ok (.popQq .af) [] ∧
    decode [0b11_11_0101] = .ok (.pushQq .af) [] ∧
    decode [0b11111000, 0xFB] = .ok (.ldHlSpE 0xFB) [] ∧
    decode [0b11111001] = .ok .ldSpHl [] := by decide

/-- 30_encoding.md R101, R102: bytes written out from the tables. -/
theorem test_decode_add_sub :
    decode [0b10000_111] = .ok (.addAR .a) [] ∧
    decode [0b10000110] = .ok .addAHl [] ∧
    decode [0b11000110, 0x5A] = .ok (.addAN 0x5A) [] ∧
    decode [0b10001_111] = .ok (.adcAR .a) [] ∧
    decode [0b10001110] = .ok .adcAHl [] ∧
    decode [0b11001110, 0x5A] = .ok (.adcAN 0x5A) [] ∧
    decode [0b10010_111] = .ok (.subR .a) [] ∧
    decode [0b10010110] = .ok .subHl [] ∧
    decode [0b11010110, 0x5A] = .ok (.subN 0x5A) [] ∧
    decode [0b10011_111] = .ok (.sbcAR .a) [] ∧
    decode [0b10011110] = .ok .sbcAHl [] ∧
    decode [0b11011110, 0x5A] = .ok (.sbcAN 0x5A) [] := by decide

/-- 30_encoding.md R101, R102: bytes written out from the tables. -/
theorem test_decode_logic_compare :
    decode [0b10100_111] = .ok (.andR .a) [] ∧
    decode [0b10100110] = .ok .andHl [] ∧
    decode [0b11100110, 0x5A] = .ok (.andN 0x5A) [] ∧
    decode [0b10101_111] = .ok (.xorR .a) [] ∧
    decode [0b10101110] = .ok .xorHl [] ∧
    decode [0b11101110, 0x5A] = .ok (.xorN 0x5A) [] ∧
    decode [0b10110_111] = .ok (.orR .a) [] ∧
    decode [0b10110110] = .ok .orHl [] ∧
    decode [0b11110110, 0x5A] = .ok (.orN 0x5A) [] ∧
    decode [0b10111_111] = .ok (.cpR .a) [] ∧
    decode [0b10111110] = .ok .cpHl [] ∧
    decode [0b11111110, 0x5A] = .ok (.cpN 0x5A) [] := by decide

/-- 30_encoding.md R101, R102: bytes written out from the tables. -/
theorem test_decode_inc_dec_flags :
    decode [0b00_011_100] = .ok (.incR .e) [] ∧
    decode [0b00110100] = .ok .incHl [] ∧
    decode [0b00_011_101] = .ok (.decR .e) [] ∧
    decode [0b00110101] = .ok .decHl [] ∧
    decode [0b00100111] = .ok .daa [] ∧
    decode [0b00101111] = .ok .cpl [] ∧
    decode [0b00110111] = .ok .scf [] ∧
    decode [0b00111111] = .ok .ccf [] := by decide

/-- 30_encoding.md R101, R102: bytes written out from the tables. -/
theorem test_decode_alu16 :
    decode [0b00_11_0011] = .ok (.incRr .sp) [] ∧
    decode [0b00_11_1001] = .ok (.addHlRr .sp) [] ∧
    decode [0b00_11_1011] = .ok (.decRr .sp) [] ∧
    decode [0b11101000, 0xFB] = .ok (.addSpE 0xFB) [] := by decide

/-- 30_encoding.md R101, R102: bytes written out from the tables. -/
theorem test_decode_control :
    decode [0b00011000, 0xFB] = .ok (.jrE 0xFB) [] ∧
    decode [0b001_01_000, 0xFB] = .ok (.jrCcE .z 0xFB) [] ∧
    decode [0b110_01_000] = .ok (.retCc .z) [] ∧
    decode [0b110_01_010, 0x34, 0x12] = .ok (.jpCcNn .z 0x1234) [] ∧
    decode [0b11000011, 0x34, 0x12] = .ok (.jpNn 0x1234) [] ∧
    decode [0b110_01_100, 0x34, 0x12] = .ok (.callCcNn .z 0x1234) [] ∧
    decode [0b11_101_111] = .ok (.rstT 5) [] ∧
    decode [0b11001001] = .ok .ret [] ∧
    decode [0b11001101, 0x34, 0x12] = .ok (.callNn 0x1234) [] ∧
    decode [0b11011001] = .ok .reti [] ∧
    decode [0b11101001] = .ok .jpHl [] := by decide

/-- 30_encoding.md R101, R102: bytes written out from the tables. -/
theorem test_decode_rotate_a :
    decode [0b00000111] = .ok .rlca [] ∧
    decode [0b00001111] = .ok .rrca [] ∧
    decode [0b00010111] = .ok .rla [] ∧
    decode [0b00011111] = .ok .rra [] := by decide

/-- 30_encoding.md R101, R102: bytes written out from the tables. -/
theorem test_decode_shifts :
    decode [0xCB, 0b00000_101] = .ok (.rlcR .l) [] ∧
    decode [0xCB, 0b00000110] = .ok .rlcHl [] ∧
    decode [0xCB, 0b00001_101] = .ok (.rrcR .l) [] ∧
    decode [0xCB, 0b00001110] = .ok .rrcHl [] ∧
    decode [0xCB, 0b00010_101] = .ok (.rlR .l) [] ∧
    decode [0xCB, 0b00010110] = .ok .rlHl [] ∧
    decode [0xCB, 0b00011_101] = .ok (.rrR .l) [] ∧
    decode [0xCB, 0b00011110] = .ok .rrHl [] ∧
    decode [0xCB, 0b00100_101] = .ok (.slaR .l) [] ∧
    decode [0xCB, 0b00100110] = .ok .slaHl [] ∧
    decode [0xCB, 0b00101_101] = .ok (.sraR .l) [] ∧
    decode [0xCB, 0b00101110] = .ok .sraHl [] ∧
    decode [0xCB, 0b00110_101] = .ok (.swapR .l) [] ∧
    decode [0xCB, 0b00110110] = .ok .swapHl [] ∧
    decode [0xCB, 0b00111_101] = .ok (.srlR .l) [] ∧
    decode [0xCB, 0b00111110] = .ok .srlHl [] := by decide

/-- 30_encoding.md R101, R102: bytes written out from the tables. -/
theorem test_decode_bits :
    decode [0xCB, 0b01_110_101] = .ok (.bitR 6 .l) [] ∧
    decode [0xCB, 0b01_110_110] = .ok (.bitHl 6) [] ∧
    decode [0xCB, 0b10_110_101] = .ok (.resR 6 .l) [] ∧
    decode [0xCB, 0b10_110_110] = .ok (.resHl 6) [] ∧
    decode [0xCB, 0b11_110_101] = .ok (.setR 6 .l) [] ∧
    decode [0xCB, 0b11_110_110] = .ok (.setHl 6) [] := by decide

/-- 30_encoding.md R101, R102: bytes written out from the tables. -/
theorem test_decode_system :
    decode [0b00000000] = .ok .nop [] ∧
    decode [0b00010000] = .ok .stop [] ∧
    decode [0b01110110] = .ok .halt [] ∧
    decode [0b11110011] = .ok .di [] ∧
    decode [0b11111011] = .ok .ei [] := by decide

/-- 30_encoding.md R101, R102: bytes written out from the tables. -/
theorem test_decode_unassigned :
    decode [0b11010011] = .ok .illegalD3 [] ∧
    decode [0b11011011] = .ok .illegalDB [] ∧
    decode [0b11011101] = .ok .illegalDD [] ∧
    decode [0b11100011] = .ok .illegalE3 [] ∧
    decode [0b11100100] = .ok .illegalE4 [] ∧
    decode [0b11101011] = .ok .illegalEB [] ∧
    decode [0b11101100] = .ok .illegalEC [] ∧
    decode [0b11101101] = .ok .illegalED [] ∧
    decode [0b11110100] = .ok .illegalF4 [] ∧
    decode [0b11111100] = .ok .illegalFC [] ∧
    decode [0b11111101] = .ok .illegalFD [] := by decide

/-- Register codes and the fields of R94, R95, R99 at every value, and code 6 selecting the `(HL)` row. -/
theorem test_decode_fields :
    decode [0b01_000_001] = .ok (.ldRR .b .c) [] ∧ decode [0b01_010_011] = .ok (.ldRR .d .e) [] ∧
    decode [0b01_100_101] = .ok (.ldRR .h .l) [] ∧ decode [0b01_111_110] = .ok (.ldRHl .a) [] ∧
    decode [0b01_110_000] = .ok (.ldHlR .b) [] ∧ decode [0b01_110_110] = .ok .halt [] ∧
    decode [0b00_00_1001] = .ok (.addHlRr .bc) [] ∧ decode [0b00_01_1001] = .ok (.addHlRr .de) [] ∧
    decode [0b00_10_1001] = .ok (.addHlRr .hl) [] ∧ decode [0b00_11_1001] = .ok (.addHlRr .sp) [] ∧
    decode [0b11_00_0101] = .ok (.pushQq .bc) [] ∧ decode [0b11_01_0101] = .ok (.pushQq .de) [] ∧
    decode [0b11_10_0101] = .ok (.pushQq .hl) [] ∧ decode [0b11_11_0101] = .ok (.pushQq .af) [] ∧
    decode [0b110_00_000] = .ok (.retCc .nz) [] ∧ decode [0b110_01_000] = .ok (.retCc .z) [] ∧
    decode [0b110_10_000] = .ok (.retCc .nc) [] ∧ decode [0b110_11_000] = .ok (.retCc .c) [] := by decide

/-- What is no whole instruction is rejected by name. -/
theorem test_decode_rejects :
    decode [] = .rejected .noBytes ∧ decode [0xCB] = .rejected .prefixAlone ∧
    decode [0x3E] = .rejected (.operandMissing 0x3E) ∧ decode [0xC3, 0x00] = .rejected (.operandMissing 0xC3) := by decide

/-- The host's table words: the first byte is bits 7..0, a missing operand byte is 0. -/
theorem test_decodeTableWord :
    decodeTableWord 8 0x78 = some (.ldRR .a .b) ∧ decodeTableWord 8 0xC3 = some (.jpNn 0x0000) ∧
    decodeTableWord 16 0x5A3E = some (.ldRN .a 0x5A) ∧ decodeTableWord 16 0x37CB = some (.swapR .a) ∧
    decodeTableWord 24 0x1234CD = some (.callNn 0x1234) := by decide

/-- The default state of 95_test_vectors.md section 2. -/
def base : State := { State.reset with pc := 0xC000, sp := 0xDFF0 }

/-- Bytes stored from PC on. -/
def code (s : State) (bytes : List Byte) : State :=
  (bytes.foldl (fun (p : State × Word) b => (p.1.writeBus p.2 b, p.2 + 1)) (s, s.pc)).1

/-- Whether the step from `s` answers a next state with `post`, which is also given the cost of the instruction. -/
def gives (s : State) (post : State → Nat → Bool) : Bool :=
  match step s with
  | .next t => post t (cycleCost s.fetch s)
  | .fault _ => false
  | .refused _ => false

/-- The state a result holds, or `d` where it holds none. -/
def nextOf (d : State) : Result → State
  | .next t => t
  | .fault _ => d
  | .refused _ => d

/-- Vector V227. -/
theorem test_nop_V227 : gives (code { base with flags := Flags.fromByte 0xF0 } [0x00])
    (fun t c => t.flags.z == true && t.flags.n == true && t.flags.h == true && t.flags.c == true && t.pc == 0xC001 && c == 4) = true := by decide

/-- Vector V21. -/
theorem test_ldRrNn_V21 : gives (code base [0x01, 0x34, 0x12])
    (fun t c => t.bc == 0x1234 && t.pc == 0xC003 && c == 12) = true := by decide

/-- Vector V22. -/
theorem test_ldRrNn_V22 : gives (code base [0x31, 0xFE, 0xFF])
    (fun t _ => t.sp == 0xFFFE) = true := by decide

/-- Vector V9. -/
theorem test_ldBcA_V9 : gives (code { base with regs := { base.regs with a := 0x3C, b := 0xC2, c := 0x05 } } [0x02])
    (fun t _ => t.readBus 0xC205 == 0x3C) = true := by decide

/-- Vector V10. -/
theorem test_ldDeA_V10 : gives (code { base with regs := { base.regs with a := 0x01, d := 0xFF, e := 0x0F } } [0x12])
    (fun t _ => t.ifReg == 0x01 && t.readBus 0xFF0F == 0x01) = true := by decide

/-- Vector V18. -/
theorem test_ldHlIncA_V18 : gives (code { base with regs := { base.regs with a := 0x56, h := 0xC0, l := 0xFF } } [0x22])
    (fun t _ => t.readBus 0xC0FF == 0x56 && t.hl == 0xC100) = true := by decide

/-- Vector V20. -/
theorem test_ldHlDecA_V20 : gives (code { base with regs := { base.regs with a := 0x05, h := 0x40, l := 0x00 } } [0x32])
    (fun t _ => t.readBus 0x4000 == 0x05 && t.hl == 0x3FFF) = true := by decide

/-- Vector V166. -/
theorem test_incRr_V166 : gives (code { base with sp := 0xFFFF, flags := Flags.fromByte 0xF0 } [0x33])
    (fun t _ => t.sp == 0x0000 && t.flags.z == true && t.flags.n == true && t.flags.h == true && t.flags.c == true) = true := by decide

/-- Vector V135. -/
theorem test_incR_V135 : gives (code { base with regs := { base.regs with a := 0x0F } } [0x3C])
    (fun t _ => t.regs.a == 0x10 && t.flags.z == false && t.flags.n == false && t.flags.h == true && t.flags.c == false) = true := by decide

/-- Vector V136. -/
theorem test_incHl_V136 : gives ((code { base with regs := { base.regs with h := 0xC0, l := 0x10 } } [0x34]).writeBus 0xC010 0x50)
    (fun t c => t.readBus 0xC010 == 0x51 && t.flags.z == false && t.flags.n == false && t.flags.h == false && t.flags.c == false && c == 12) = true := by decide

/-- Vector V140. -/
theorem test_incHl_V140 : gives (code { base with regs := { base.regs with h := 0xFF, l := 0x44 } } [0x34])
    (fun t _ => t.readBus 0xFF44 == 0x00 && t.flags.z == false && t.flags.n == false && t.flags.h == false && t.flags.c == false) = true := by decide

/-- Vector V137. -/
theorem test_decR_V137 : gives (code { base with regs := { base.regs with l := 0x01 } } [0x2D])
    (fun t _ => t.regs.l == 0x00 && t.flags.z == true && t.flags.n == true && t.flags.h == false && t.flags.c == false) = true := by decide

/-- Vector V138. -/
theorem test_decR_V138 : gives (code { base with regs := { base.regs with c := 0x00 }, flags := ⟨false, false, false, true⟩ } [0x0D])
    (fun t _ => t.regs.c == 0xFF && t.flags.z == false && t.flags.n == true && t.flags.h == true && t.flags.c == true) = true := by decide

/-- Vector V139. -/
theorem test_decHl_V139 : gives ((code { base with regs := { base.regs with h := 0xC0, l := 0x10 } } [0x35]).writeBus 0xC010 0x10)
    (fun t c => t.readBus 0xC010 == 0x0F && t.flags.z == false && t.flags.n == true && t.flags.h == true && t.flags.c == false && c == 12) = true := by decide

/-- Vector V5. -/
theorem test_ldRN_V5 : gives (code base [0x0E, 0xFF])
    (fun t c => t.regs.c == 0xFF && t.pc == 0xC002 && c == 8) = true := by decide

/-- Vector V6. -/
theorem test_ldHlN_V6 : gives (code { base with regs := { base.regs with h := 0xFF, l := 0x47 } } [0x36, 0x5A])
    (fun t c => t.readBus 0xFF47 == 0x5A && c == 12) = true := by decide

/-- Vector V194. -/
theorem test_rlca_V194 : gives (code { base with regs := { base.regs with a := 0x85 } } [0x07])
    (fun t c => t.regs.a == 0x0B && t.flags.z == false && t.flags.n == false && t.flags.h == false && t.flags.c == true && c == 4) = true := by decide

/-- Vector V23. -/
theorem test_ldNnSp_V23 : gives (code { base with sp := 0xFFF8 } [0x08, 0x00, 0xC1])
    (fun t c => t.readBus 0xC100 == 0xF8 && t.readBus 0xC101 == 0xFF && c == 20) = true := by decide

/-- Vector V24. -/
theorem test_ldNnSp_V24 : gives (code { base with sp := 0xAB12 } [0x08, 0xFF, 0xFF])
    (fun t _ => t.ie == 0x12 && t.readBus 0x0000 == 0xAB) = true := by decide

/-- Vector V162. -/
theorem test_addHlRr_V162 : gives (code { base with regs := { base.regs with h := 0x8A, l := 0x23 } } [0x29])
    (fun t _ => t.hl == 0x1446 && t.flags.z == false && t.flags.n == false && t.flags.h == true && t.flags.c == true) = true := by decide

/-- Vector V7. -/
theorem test_ldABc_V7 : gives ((code { base with regs := { base.regs with b := 0xC2, c := 0x00 } } [0x0A]).writeBus 0xC200 0x2F)
    (fun t c => t.regs.a == 0x2F && c == 8) = true := by decide

/-- Vector V8. -/
theorem test_ldADe_V8 : gives (code { base with regs := { base.regs with d := 0xFF, e := 0xFF }, ie := 0x15 } [0x1A])
    (fun t _ => t.regs.a == 0x15) = true := by decide

/-- Vector V17. -/
theorem test_ldAHlInc_V17 : gives (code { base with regs := { base.regs with h := 0xFF, l := 0xFF }, ie := 0x09 } [0x2A])
    (fun t c => t.regs.a == 0x09 && t.hl == 0x0000 && c == 8) = true := by decide

/-- Vector V19. -/
theorem test_ldAHlDec_V19 : gives ((code { base with regs := { base.regs with h := 0x00, l := 0x00 } } [0x3A]).writeBus 0x0000 0x3C)
    (fun t _ => t.regs.a == 0x3C && t.hl == 0xFFFF) = true := by decide

/-- Vector V168. -/
theorem test_decRr_V168 : gives (code { base with regs := { base.regs with h := 0x00, l := 0x00 } } [0x2B])
    (fun t _ => t.hl == 0xFFFF && t.flags.z == false && t.flags.n == false && t.flags.h == false && t.flags.c == false) = true := by decide

/-- Vector V196. -/
theorem test_rrca_V196 : gives (code { base with regs := { base.regs with a := 0x3B } } [0x0F])
    (fun t _ => t.regs.a == 0x9D && t.flags.z == false && t.flags.n == false && t.flags.h == false && t.flags.c == true) = true := by decide

/-- Vector V229. -/
theorem test_stop_V229 : gives (code base [0x10, 0x00])
    (fun t _ => t.fatal == some (.unimplemented 0x10 .base) && t.pc == 0xC000) = true := by decide

/-- Vector V197. -/
theorem test_rla_V197 : gives (code { base with regs := { base.regs with a := 0x95 }, flags := ⟨false, false, false, true⟩ } [0x17])
    (fun t _ => t.regs.a == 0x2B && t.flags.z == false && t.flags.n == false && t.flags.h == false && t.flags.c == true) = true := by decide

/-- Vector V179. -/
theorem test_jrE_V179 : gives (code { base with pc := 0x0100 } [0x18, 0xFE])
    (fun t c => t.pc == 0x0100 && c == 12) = true := by decide

/-- Vector V181. -/
theorem test_jrE_V181 : gives (code { base with pc := 0x0010 } [0x18, 0x80])
    (fun t _ => t.pc == 0xFF92) = true := by decide

/-- Vector V199. -/
theorem test_rra_V199 : gives (code { base with regs := { base.regs with a := 0x81 } } [0x1F])
    (fun t _ => t.regs.a == 0x40 && t.flags.z == false && t.flags.n == false && t.flags.h == false && t.flags.c == true) = true := by decide

/-- Vector V182. -/
theorem test_jrCcE_V182 : gives (code { base with flags := ⟨false, false, false, false⟩, pc := 0x0005 } [0x20, 0xFB])
    (fun t c => t.pc == 0x0002 && c == 12) = true := by decide

/-- Vector V183. -/
theorem test_jrCcE_V183 : gives (code { base with flags := ⟨true, false, false, false⟩, pc := 0x0005 } [0x20, 0xFB])
    (fun t c => t.pc == 0x0007 && c == 8) = true := by decide

/-- Vector V150. -/
theorem test_daa_V150 : gives (code { base with regs := { base.regs with a := 0x32 }, flags := ⟨false, false, true, true⟩ } [0x27])
    (fun t _ => t.regs.a == 0x98 && t.flags == ⟨false, false, false, true⟩) = true := by decide

/-- Vector V156. -/
theorem test_daa_V156 : gives (code { base with regs := { base.regs with a := 0xF0 }, flags := ⟨false, true, false, true⟩ } [0x27])
    (fun t _ => t.regs.a == 0x90 && t.flags == ⟨false, true, false, true⟩) = true := by decide

/-- Vector V141. -/
theorem test_cpl_V141 : gives (code { base with regs := { base.regs with a := 0x35 } } [0x2F])
    (fun t _ => t.regs.a == 0xCA && t.flags.z == false && t.flags.n == true && t.flags.h == true && t.flags.c == false) = true := by decide

/-- Vector V142. -/
theorem test_scf_V142 : gives (code { base with flags := Flags.fromByte 0xE0 } [0x37])
    (fun t _ => t.flags.z == true && t.flags.n == false && t.flags.h == false && t.flags.c == true) = true := by decide

/-- Vector V144. -/
theorem test_ccf_V144 : gives (code { base with flags := Flags.fromByte 0x80 } [0x3F])
    (fun t _ => t.flags.z == true && t.flags.n == false && t.flags.h == false && t.flags.c == true) = true := by decide

/-- Vector V1. -/
theorem test_ldRR_V1 : gives (code { base with regs := { base.regs with b := 0x12 } } [0x78])
    (fun t c => t.regs.a == 0x12 && t.flags.z == false && t.flags.n == false && t.flags.h == false && t.flags.c == false && t.pc == 0xC001 && c == 4) = true := by decide

/-- Vector V3. -/
theorem test_ldRHl_V3 : gives ((code { base with regs := { base.regs with h := 0xC1, l := 0x23 } } [0x66]).writeBus 0xC123 0x9A)
    (fun t c => t.hl == 0x9A23 && c == 8) = true := by decide

/-- Vector V4. -/
theorem test_ldHlR_V4 : gives (code { base with regs := { base.regs with h := 0xC1, l := 0x23 } } [0x75])
    (fun t c => t.readBus 0xC123 == 0x23 && c == 8) = true := by decide

/-- Vector V228. -/
theorem test_halt_V228 : gives (code base [0x76])
    (fun t c => t.halted == true && t.pc == 0xC001 && c == 4) = true := by decide

/-- Vector V38. -/
theorem test_addAR_V38 : gives (code { base with regs := { base.regs with a := 0xFF, b := 0x01 }, flags := ⟨false, false, false, false⟩ } [0x80])
    (fun t _ => t.regs.a == 0x00 && t.flags == ⟨true, false, true, true⟩) = true := by decide

/-- Vector V125. -/
theorem test_addAHl_V125 : gives ((code { base with regs := { base.regs with a := 0x3A, h := 0xC0, l := 0x10 } } [0x86]).writeBus 0xC010 0xC6)
    (fun t c => t.regs.a == 0x00 && t.flags.z == true && t.flags.n == false && t.flags.h == true && t.flags.c == true && c == 8) = true := by decide

/-- The operands and results of vector V38, in this instruction's operand form. -/
theorem test_addAN : gives (code { base with regs := { base.regs with a := 0xFF }, flags := ⟨false, false, false, false⟩ } [0xC6, 0x01])
    (fun t _ => t.regs.a == 0x00 && t.flags == ⟨true, false, true, true⟩) = true := by decide

/-- Vector V49. -/
theorem test_adcAR_V49 : gives (code { base with regs := { base.regs with a := 0xFF, b := 0x01 }, flags := ⟨false, false, false, false⟩ } [0x88])
    (fun t _ => t.regs.a == 0x00 && t.flags == ⟨true, false, true, true⟩) = true := by decide

/-- The operands and results of vector V57, in this instruction's operand form. -/
theorem test_adcAHl : gives ((code { base with regs := { base.regs with a := 0x00, h := 0xC3, l := 0x00 }, flags := ⟨false, false, false, true⟩ } [0x8E]).writeBus 0xC300 0xFF)
    (fun t _ => t.regs.a == 0x00 && t.flags == ⟨true, false, true, true⟩) = true := by decide

/-- Vector V126. -/
theorem test_adcAN_V126 : gives (code { base with regs := { base.regs with a := 0xF0 }, flags := ⟨false, false, false, true⟩ } [0xCE, 0x0F])
    (fun t c => t.regs.a == 0x00 && t.flags.z == true && t.flags.n == false && t.flags.h == true && t.flags.c == true && t.pc == 0xC002 && c == 8) = true := by decide

/-- Vector V63. -/
theorem test_subR_V63 : gives (code { base with regs := { base.regs with a := 0x00, b := 0x01 }, flags := ⟨false, false, false, true⟩ } [0x90])
    (fun t _ => t.regs.a == 0xFF && t.flags == ⟨false, true, true, true⟩) = true := by decide

/-- The operands and results of vector V68, in this instruction's operand form. -/
theorem test_subHl : gives ((code { base with regs := { base.regs with a := 0x00, h := 0xC3, l := 0x00 }, flags := ⟨false, false, false, true⟩ } [0x96]).writeBus 0xC300 0xFF)
    (fun t _ => t.regs.a == 0x01 && t.flags == ⟨false, true, true, true⟩) = true := by decide

/-- The operands and results of vector V68, in this instruction's operand form. -/
theorem test_subN : gives (code { base with regs := { base.regs with a := 0x00 }, flags := ⟨false, false, false, true⟩ } [0xD6, 0xFF])
    (fun t _ => t.regs.a == 0x01 && t.flags == ⟨false, true, true, true⟩) = true := by decide

/-- Vector V79. -/
theorem test_sbcAR_V79 : gives (code { base with regs := { base.regs with a := 0x00, b := 0xFF }, flags := ⟨false, false, false, true⟩ } [0x98])
    (fun t _ => t.regs.a == 0x00 && t.flags == ⟨true, true, true, true⟩) = true := by decide

/-- The operands and results of vector V79, in this instruction's operand form. -/
theorem test_sbcAHl : gives ((code { base with regs := { base.regs with a := 0x00, h := 0xC3, l := 0x00 }, flags := ⟨false, false, false, true⟩ } [0x9E]).writeBus 0xC300 0xFF)
    (fun t _ => t.regs.a == 0x00 && t.flags == ⟨true, true, true, true⟩) = true := by decide

/-- The operands and results of vector V79, in this instruction's operand form. -/
theorem test_sbcAN : gives (code { base with regs := { base.regs with a := 0x00 }, flags := ⟨false, false, false, true⟩ } [0xDE, 0xFF])
    (fun t _ => t.regs.a == 0x00 && t.flags == ⟨true, true, true, true⟩) = true := by decide

/-- Vector V80. -/
theorem test_andR_V80 : gives (code { base with regs := { base.regs with a := 0x00, b := 0x00 }, flags := ⟨false, false, false, false⟩ } [0xA0])
    (fun t _ => t.regs.a == 0x00 && t.flags == ⟨true, false, true, false⟩) = true := by decide

/-- The operands and results of vector V90, in this instruction's operand form. -/
theorem test_andHl : gives ((code { base with regs := { base.regs with a := 0x00, h := 0xC3, l := 0x00 }, flags := ⟨false, false, false, true⟩ } [0xA6]).writeBus 0xC300 0xFF)
    (fun t _ => t.regs.a == 0x00 && t.flags == ⟨true, false, true, false⟩) = true := by decide

/-- Vector V133. -/
theorem test_andN_V133 : gives (code { base with regs := { base.regs with a := 0x5A } } [0xE6, 0x38])
    (fun t _ => t.regs.a == 0x18 && t.flags.z == false && t.flags.n == false && t.flags.h == true && t.flags.c == false) = true := by decide

/-- Vector V91. -/
theorem test_xorR_V91 : gives (code { base with regs := { base.regs with a := 0x00, b := 0x00 }, flags := ⟨false, false, false, false⟩ } [0xA8])
    (fun t _ => t.regs.a == 0x00 && t.flags == ⟨true, false, false, false⟩) = true := by decide

/-- The operands and results of vector V100, in this instruction's operand form. -/
theorem test_xorHl : gives ((code { base with regs := { base.regs with a := 0x0F, h := 0xC3, l := 0x00 }, flags := ⟨false, false, false, true⟩ } [0xAE]).writeBus 0xC300 0x0F)
    (fun t _ => t.regs.a == 0x00 && t.flags == ⟨true, false, false, false⟩) = true := by decide

/-- The operands and results of vector V100, in this instruction's operand form. -/
theorem test_xorN : gives (code { base with regs := { base.regs with a := 0x0F }, flags := ⟨false, false, false, true⟩ } [0xEE, 0x0F])
    (fun t _ => t.regs.a == 0x00 && t.flags == ⟨true, false, false, false⟩) = true := by decide

/-- Vector V102. -/
theorem test_orR_V102 : gives (code { base with regs := { base.regs with a := 0x00, b := 0x00 }, flags := ⟨false, false, false, false⟩ } [0xB0])
    (fun t _ => t.regs.a == 0x00 && t.flags == ⟨true, false, false, false⟩) = true := by decide

/-- Vector V132. -/
theorem test_orHl_V132 : gives ((code { base with regs := { base.regs with a := 0x5A, h := 0xC0, l := 0x10 } } [0xB6]).writeBus 0xC010 0x0F)
    (fun t _ => t.regs.a == 0x5F && t.flags.z == false && t.flags.n == false && t.flags.h == false && t.flags.c == false) = true := by decide

/-- The operands and results of vector V102, in this instruction's operand form. -/
theorem test_orN : gives (code { base with regs := { base.regs with a := 0x00 }, flags := ⟨false, false, false, false⟩ } [0xF6, 0x00])
    (fun t _ => t.regs.a == 0x00 && t.flags == ⟨true, false, false, false⟩) = true := by decide

/-- Vector V118. -/
theorem test_cpR_V118 : gives (code { base with regs := { base.regs with a := 0x00, b := 0x01 }, flags := ⟨false, false, false, true⟩ } [0xB8])
    (fun t _ => t.regs.a == 0x00 && t.flags == ⟨false, true, true, true⟩) = true := by decide

/-- Vector V130. -/
theorem test_cpHl_V130 : gives ((code { base with regs := { base.regs with a := 0x3C, h := 0xC0, l := 0x10 } } [0xBE]).writeBus 0xC010 0x40)
    (fun t c => t.regs.a == 0x3C && t.flags.z == false && t.flags.n == true && t.flags.h == false && t.flags.c == true && c == 8) = true := by decide

/-- Vector V129. -/
theorem test_cpN_V129 : gives (code { base with regs := { base.regs with a := 0x90 } } [0xFE, 0x90])
    (fun t c => t.regs.a == 0x90 && t.flags.z == true && t.flags.n == true && t.flags.h == false && t.flags.c == false && c == 8) = true := by decide

/-- Vector V189. -/
theorem test_retCc_V189 : gives (((code { base with flags := ⟨true, false, false, false⟩, sp := 0xFFFC } [0xC8]).writeBus 0xFFFC 0x03).writeBus 0xFFFD 0x02)
    (fun t c => t.pc == 0x0203 && t.sp == 0xFFFE && c == 20) = true := by decide

/-- Vector V190. -/
theorem test_retCc_V190 : gives (code { base with flags := ⟨false, false, false, false⟩, sp := 0xFFFC } [0xC8])
    (fun t c => t.pc == 0xC001 && t.sp == 0xFFFC && c == 8) = true := by decide

/-- Vector V33. -/
theorem test_popQq_V33 : gives (((code { base with sp := 0xD000 } [0xF1]).writeBus 0xD000 0xFF).writeBus 0xD001 0x12)
    (fun t c => t.af == 0x12F0 && t.flags.z == true && t.flags.n == true && t.flags.h == true && t.flags.c == true && t.sp == 0xD002 && c == 12) = true := by decide

/-- Vector V174. -/
theorem test_jpCcNn_V174 : gives (code { base with flags := ⟨true, false, false, false⟩ } [0xCA, 0x00, 0x80])
    (fun t c => t.pc == 0x8000 && c == 16) = true := by decide

/-- Vector V175. -/
theorem test_jpCcNn_V175 : gives (code { base with flags := ⟨false, false, false, false⟩ } [0xCA, 0x00, 0x80])
    (fun t c => t.pc == 0xC003 && c == 12) = true := by decide

/-- Vector V173. -/
theorem test_jpNn_V173 : gives (code base [0xC3, 0x50, 0x01])
    (fun t c => t.pc == 0x0150 && c == 16) = true := by decide

/-- Vector V186. -/
theorem test_callCcNn_V186 : gives (code { base with flags := ⟨false, false, false, false⟩, pc := 0x0200 } [0xDC, 0x00, 0x40])
    (fun t c => t.pc == 0x0203 && t.sp == 0xDFF0 && c == 12) = true := by decide

/-- Vector V187. -/
theorem test_callCcNn_V187 : gives (code { base with flags := ⟨false, false, false, false⟩, pc := 0x0200 } [0xC4, 0x00, 0x40])
    (fun t c => t.pc == 0x4000 && t.sp == 0xDFEE && t.readBus 0xDFEF == 0x02 && t.readBus 0xDFEE == 0x03 && c == 24) = true := by decide

/-- Vector V31. -/
theorem test_pushQq_V31 : gives (code { base with regs := { base.regs with a := 0x12 }, flags := Flags.fromByte 0xF0, sp := 0xD000 } [0xF5])
    (fun t _ => t.readBus 0xCFFF == 0x12 && t.readBus 0xCFFE == 0xF0 && t.sp == 0xCFFE) = true := by decide

/-- Vector V193. -/
theorem test_rstT_V193 : gives (code { base with pc := 0xFFFF, sp := 0x0002 } [0xC7])
    (fun t _ => t.pc == 0x0000 && t.sp == 0x0000 && t.readBus 0x0001 == 0x00 && t.readBus 0x0000 == 0x00) = true := by decide

/-- Vector V188. -/
theorem test_ret_V188 : gives (((code { base with sp := 0xFFFC } [0xC9]).writeBus 0xFFFC 0x03).writeBus 0xFFFD 0x02)
    (fun t c => t.pc == 0x0203 && t.sp == 0xFFFE && c == 16) = true := by decide

/-- Vector V185. -/
theorem test_callNn_V185 : gives (code { base with pc := 0x0200, sp := 0xFFFE } [0xCD, 0x34, 0x12])
    (fun t c => t.pc == 0x1234 && t.sp == 0xFFFC && t.readBus 0xFFFD == 0x02 && t.readBus 0xFFFC == 0x03 && c == 24) = true := by decide

/-- Vector V191. -/
theorem test_reti_V191 : gives (((code { base with sp := 0xFFFC } [0xD9]).writeBus 0xFFFC 0x03).writeBus 0xFFFD 0x02)
    (fun t c => t.pc == 0x0203 && t.sp == 0xFFFE && t.ime == true && t.imePending == false && c == 16) = true := by decide

/-- Vector V16. -/
theorem test_ldhNA_V16 : gives (code { base with regs := { base.regs with a := 0x1F } } [0xE0, 0xFF])
    (fun t c => t.ie == 0x1F && c == 12) = true := by decide

/-- Vector V14. -/
theorem test_ldhCA_V14 : gives (code { base with regs := { base.regs with a := 0x91, c := 0x40 } } [0xE2])
    (fun t c => t.readBus 0xFF40 == 0x91 && c == 8) = true := by decide

/-- Vector V172. -/
theorem test_addSpE_V172 : gives (code { base with sp := 0x00FF } [0xE8, 0x01])
    (fun t _ => t.sp == 0x0100 && t.flags.z == false && t.flags.n == false && t.flags.h == true && t.flags.c == true) = true := by decide

/-- Vector V177. -/
theorem test_jpHl_V177 : gives (code { base with regs := { base.regs with h := 0xFF, l := 0x80 } } [0xE9])
    (fun t c => t.pc == 0xFF80 && c == 4) = true := by decide

/-- Vector V12. -/
theorem test_ldNnA_V12 : gives (code { base with regs := { base.regs with a := 0xAB } } [0xEA, 0x00, 0x80])
    (fun t c => t.readBus 0x8000 == 0xAB && t.pc == 0xC003 && c == 16) = true := by decide

/-- Vector V15. -/
theorem test_ldhAN_V15 : gives ((code base [0xF0, 0x80]).writeBus 0xFF80 0x66)
    (fun t c => t.regs.a == 0x66 && t.pc == 0xC002 && c == 12) = true := by decide

/-- Vector V13. -/
theorem test_ldhAC_V13 : gives (code { base with regs := { base.regs with c := 0x41 } } [0xF2])
    (fun t c => t.regs.a == 0x86 && c == 8) = true := by decide

/-- Vector V230. -/
theorem test_di_V230 : gives (code { base with ime := true } [0xF3])
    (fun t c => t.ime == false && t.imePending == false && c == 4) = true := by decide

/-- Vector V29. -/
theorem test_ldHlSpE_V29 : gives (code { base with sp := 0xFFF8 } [0xF8, 0xF8])
    (fun t _ => t.hl == 0xFFF0 && t.flags.z == false && t.flags.n == false && t.flags.h == true && t.flags.c == true) = true := by decide

/-- Vector V25. -/
theorem test_ldSpHl_V25 : gives (code { base with regs := { base.regs with h := 0xD0, l := 0x00 } } [0xF9])
    (fun t c => t.sp == 0xD000 && c == 8) = true := by decide

/-- Vector V11. -/
theorem test_ldANn_V11 : gives (code base [0xFA, 0x44, 0xFF])
    (fun t c => t.regs.a == 0x00 && t.pc == 0xC003 && c == 16) = true := by decide

/-- Vector V231. -/
theorem test_ei_V231 : gives (code base [0xFB])
    (fun t c => t.ime == false && t.imePending == true && c == 4) = true := by decide

/-- Vector V232. -/
theorem test_illegalD3_V232 : gives (code base [0xD3])
    (fun t _ => t.fatal == some (.decodeFailure 0xD3 .base) && t.pc == 0xC000) = true := by decide

/-- Vector V233. -/
theorem test_illegalDB_V233 : gives (code base [0xDB])
    (fun t _ => t.fatal == some (.decodeFailure 0xDB .base) && t.pc == 0xC000) = true := by decide

/-- Vector V234. -/
theorem test_illegalDD_V234 : gives (code base [0xDD])
    (fun t _ => t.fatal == some (.decodeFailure 0xDD .base) && t.pc == 0xC000) = true := by decide

/-- Vector V235. -/
theorem test_illegalE3_V235 : gives (code base [0xE3])
    (fun t _ => t.fatal == some (.decodeFailure 0xE3 .base) && t.pc == 0xC000) = true := by decide

/-- Vector V236. -/
theorem test_illegalE4_V236 : gives (code base [0xE4])
    (fun t _ => t.fatal == some (.decodeFailure 0xE4 .base) && t.pc == 0xC000) = true := by decide

/-- Vector V237. -/
theorem test_illegalEB_V237 : gives (code base [0xEB])
    (fun t _ => t.fatal == some (.decodeFailure 0xEB .base) && t.pc == 0xC000) = true := by decide

/-- Vector V238. -/
theorem test_illegalEC_V238 : gives (code base [0xEC])
    (fun t _ => t.fatal == some (.decodeFailure 0xEC .base) && t.pc == 0xC000) = true := by decide

/-- Vector V239. -/
theorem test_illegalED_V239 : gives (code base [0xED])
    (fun t _ => t.fatal == some (.decodeFailure 0xED .base) && t.pc == 0xC000) = true := by decide

/-- Vector V240. -/
theorem test_illegalF4_V240 : gives (code base [0xF4])
    (fun t _ => t.fatal == some (.decodeFailure 0xF4 .base) && t.pc == 0xC000) = true := by decide

/-- Vector V241. -/
theorem test_illegalFC_V241 : gives (code base [0xFC])
    (fun t _ => t.fatal == some (.decodeFailure 0xFC .base) && t.pc == 0xC000) = true := by decide

/-- Vector V242. -/
theorem test_illegalFD_V242 : gives (code base [0xFD])
    (fun t _ => t.fatal == some (.decodeFailure 0xFD .base) && t.pc == 0xC000) = true := by decide

/-- Vector V201. -/
theorem test_rlcR_V201 : gives (code { base with regs := { base.regs with b := 0x85 } } [0xCB, 0x00])
    (fun t c => t.regs.b == 0x0B && t.flags.z == false && t.flags.n == false && t.flags.h == false && t.flags.c == true && t.pc == 0xC002 && c == 8) = true := by decide

/-- Vector V203. -/
theorem test_rlcHl_V203 : gives ((code { base with regs := { base.regs with h := 0xC0, l := 0x10 } } [0xCB, 0x06]).writeBus 0xC010 0x80)
    (fun t c => t.readBus 0xC010 == 0x01 && t.flags.z == false && t.flags.n == false && t.flags.h == false && t.flags.c == true && c == 16) = true := by decide

/-- Vector V204. -/
theorem test_rrcR_V204 : gives (code { base with regs := { base.regs with c := 0x01 } } [0xCB, 0x09])
    (fun t _ => t.regs.c == 0x80 && t.flags.z == false && t.flags.n == false && t.flags.h == false && t.flags.c == true) = true := by decide

/-- Vector V205. -/
theorem test_rlR_V205 : gives (code { base with regs := { base.regs with d := 0x80 } } [0xCB, 0x12])
    (fun t _ => t.regs.d == 0x00 && t.flags.z == true && t.flags.n == false && t.flags.h == false && t.flags.c == true) = true := by decide

/-- Vector V207. -/
theorem test_rrR_V207 : gives (code { base with regs := { base.regs with e := 0x01 } } [0xCB, 0x1B])
    (fun t _ => t.regs.e == 0x00 && t.flags.z == true && t.flags.n == false && t.flags.h == false && t.flags.c == true) = true := by decide

/-- Vector V208. -/
theorem test_rrHl_V208 : gives ((code { base with regs := { base.regs with h := 0xC0, l := 0x10 }, flags := ⟨false, false, false, true⟩ } [0xCB, 0x1E]).writeBus 0xC010 0x8A)
    (fun t _ => t.readBus 0xC010 == 0xC5 && t.flags.z == false && t.flags.n == false && t.flags.h == false && t.flags.c == false) = true := by decide

/-- Vector V210. -/
theorem test_slaR_V210 : gives (code { base with regs := { base.regs with a := 0x80 } } [0xCB, 0x27])
    (fun t _ => t.regs.a == 0x00 && t.flags.z == true && t.flags.n == false && t.flags.h == false && t.flags.c == true) = true := by decide

/-- Vector V212. -/
theorem test_sraR_V212 : gives (code { base with regs := { base.regs with a := 0x01 } } [0xCB, 0x2F])
    (fun t _ => t.regs.a == 0x00 && t.flags.z == true && t.flags.n == false && t.flags.h == false && t.flags.c == true) = true := by decide

/-- Vector V213. -/
theorem test_swapR_V213 : gives (code { base with regs := { base.regs with a := 0xF1 }, flags := ⟨false, false, false, true⟩ } [0xCB, 0x37])
    (fun t _ => t.regs.a == 0x1F && t.flags.z == false && t.flags.n == false && t.flags.h == false && t.flags.c == false) = true := by decide

/-- Vector V214. -/
theorem test_swapHl_V214 : gives ((code { base with regs := { base.regs with h := 0xC0, l := 0x10 } } [0xCB, 0x36]).writeBus 0xC010 0x00)
    (fun t c => t.readBus 0xC010 == 0x00 && t.flags.z == true && t.flags.n == false && t.flags.h == false && t.flags.c == false && c == 16) = true := by decide

/-- Vector V215. -/
theorem test_srlR_V215 : gives (code { base with regs := { base.regs with a := 0xFF } } [0xCB, 0x3F])
    (fun t _ => t.regs.a == 0x7F && t.flags.z == false && t.flags.n == false && t.flags.h == false && t.flags.c == true) = true := by decide

/-- Vector V216. -/
theorem test_srlHl_V216 : gives ((code { base with regs := { base.regs with h := 0xC0, l := 0x10 } } [0xCB, 0x3E]).writeBus 0xC010 0x01)
    (fun t _ => t.readBus 0xC010 == 0x00 && t.flags.z == true && t.flags.n == false && t.flags.h == false && t.flags.c == true) = true := by decide

/-- Vector V217. -/
theorem test_bitR_V217 : gives (code { base with regs := { base.regs with h := 0x80 }, flags := ⟨false, false, false, true⟩ } [0xCB, 0x7C])
    (fun t c => t.regs.h == 0x80 && t.flags.z == false && t.flags.n == false && t.flags.h == true && t.flags.c == true && c == 8) = true := by decide

/-- Vector V218. -/
theorem test_bitR_V218 : gives (code { base with regs := { base.regs with h := 0x7F } } [0xCB, 0x7C])
    (fun t _ => t.flags.z == true && t.flags.n == false && t.flags.h == true && t.flags.c == false) = true := by decide

/-- Vector V219. -/
theorem test_bitHl_V219 : gives ((code { base with regs := { base.regs with h := 0xC0, l := 0x10 } } [0xCB, 0x46]).writeBus 0xC010 0xFE)
    (fun t c => t.flags.z == true && t.flags.n == false && t.flags.h == true && t.flags.c == false && c == 12) = true := by decide

/-- Vector V221. -/
theorem test_resR_V221 : gives (code { base with regs := { base.regs with a := 0xFF }, flags := Flags.fromByte 0xF0 } [0xCB, 0xBF])
    (fun t c => t.regs.a == 0x7F && t.flags.z == true && t.flags.n == true && t.flags.h == true && t.flags.c == true && c == 8) = true := by decide

/-- Vector V222. -/
theorem test_resHl_V222 : gives ((code { base with regs := { base.regs with h := 0xC0, l := 0x10 } } [0xCB, 0x86]).writeBus 0xC010 0x0F)
    (fun t c => t.readBus 0xC010 == 0x0E && c == 16) = true := by decide

/-- Vector V223. -/
theorem test_setR_V223 : gives (code base [0xCB, 0xFF])
    (fun t c => t.regs.a == 0x80 && t.flags.z == false && t.flags.n == false && t.flags.h == false && t.flags.c == false && c == 8) = true := by decide

/-- Vector V225. -/
theorem test_setHl_V225 : gives (code { base with regs := { base.regs with h := 0xC0, l := 0x10 } } [0xCB, 0xDE])
    (fun t c => t.readBus 0xC010 == 0x08 && c == 16) = true := by decide

/-- The value and results of vector V204, in the memory form. -/
theorem test_rrcHl : gives ((code { base with regs := { base.regs with h := 0xC3, l := 0x00 } } [0xCB, 0x0E]).writeBus 0xC300 0x01)
    (fun t _ => t.readBus 0xC300 == 0x80 && t.flags.z == false && t.flags.n == false && t.flags.h == false && t.flags.c == true) = true := by decide

/-- The value and results of vector V206, in the memory form. -/
theorem test_rlHl : gives ((code { base with regs := { base.regs with h := 0xC3, l := 0x00 }, flags := ⟨false, false, false, true⟩ } [0xCB, 0x16]).writeBus 0xC300 0x11)
    (fun t _ => t.readBus 0xC300 == 0x23 && t.flags.z == false && t.flags.n == false && t.flags.h == false && t.flags.c == false) = true := by decide

/-- The value and results of vector V210, in the memory form. -/
theorem test_slaHl : gives ((code { base with regs := { base.regs with h := 0xC3, l := 0x00 } } [0xCB, 0x26]).writeBus 0xC300 0x80)
    (fun t _ => t.readBus 0xC300 == 0x00 && t.flags.z == true && t.flags.n == false && t.flags.h == false && t.flags.c == true) = true := by decide

/-- The value and results of vector V212, in the memory form. -/
theorem test_sraHl : gives ((code { base with regs := { base.regs with h := 0xC3, l := 0x00 } } [0xCB, 0x2E]).writeBus 0xC300 0x01)
    (fun t _ => t.readBus 0xC300 == 0x00 && t.flags.z == true && t.flags.n == false && t.flags.h == false && t.flags.c == true) = true := by decide

/-- The row of the prefix byte runs the extended-table entry of the byte after it, at its cost (30_encoding.md R90). -/
theorem test_prefixByte :
    (match exec .prefixByte (code { base with regs := { base.regs with a := 0xF1 } } [0xCB, 0x37]) with
     | .next t => t.regs.a == 0x1F && t.pc == 0xC002
     | .fault _ => false
     | .refused _ => false) = true ∧ cycleCost .prefixByte (code base [0xCB, 0x46]) = 12 := by decide

/-- The kernel evaluates a step of a word placed where the first step after reset fetches. -/
theorem test_reset_runs_a_placed_word :
    gives (State.reset.withFetchWord 16 0x5A3E) (fun t _ => t.regs.a == 0x5A && t.pc == 0x0002) = true ∧
    gives (State.reset.withFetchWord 8 0x10) (fun t _ => t.fatal == some (.unimplemented 0x10 .base) && t.pc == 0x0000) = true := by
  decide

/-- The router and the LCD registers: vectors V243, V245, V246, V247, V248, V252, V253. -/
theorem test_router :
    (State.reset.writeBus 0xFF0F 0xFF).readBus 0xFF0F = 0xFF ∧ (State.reset.writeBus 0xFF0F 0xFF).memAt 0xFF0F = 0x00 ∧
    State.reset.readBus 0xFF41 = 0x86 ∧ (State.reset.writeBus 0xFF41 0xFF).readBus 0xFF41 = 0xFE ∧
    ((State.reset.writeBus 0xFF41 0x00).writeBus 0xFF45 0x05).readBus 0xFF41 = 0x82 ∧
    (State.reset.writeBus 0xFF44 0x99).readBus 0xFF44 = 0x00 ∧
    (State.reset.writeBus 0xFF4C 0x77).memAt 0xFF4C = 0x77 ∧ (State.reset.writeBus 0xFF3F 0x66).memAt 0xFF3F = 0x66 := by decide

/-- The interrupt check: vectors V266, V272, V275, V276, V278. -/
theorem test_interruptCheck :
    (let t := State.interruptCheck { base with pc := 0x1234, ime := true, ie := 0x1F, ifReg := 0x01 }
     t.pc = 0x0040 ∧ t.sp = 0xDFEE ∧ t.ime = false ∧ t.ifReg = 0x00 ∧ t.readBus 0xDFEF = 0x12 ∧ t.readBus 0xDFEE = 0x34) ∧
    (let t := State.interruptCheck { base with pc := 0x1234, ime := true, ie := 0x1E, ifReg := 0x1F }
     t.pc = 0x0048 ∧ t.ifReg = 0x1D) ∧
    (State.interruptCheck { base with ime := false, ie := 0x1F, ifReg := 0x1F }).sp = 0xDFF0 ∧
    (State.interruptCheck { base with ime := false, ie := 0x01, ifReg := 0x01, halted := true }).halted = false ∧
    (State.interruptCheck { base with ime := true, ie := 0x01, ifReg := 0x02, halted := true }).halted = true := by decide

/-- Sequence S8: RETI with a second request pending dispatches it in the same step. -/
theorem test_reti_S8 :
    gives (((code { base with pc := 0x0040, sp := 0xDFEE, ie := 0x03, ifReg := 0x02 } [0xD9]).writeBus 0xDFEE 0x34).writeBus 0xDFEF 0x12)
      (fun t _ => t.pc == 0x0048 && t.sp == 0xDFEE && !t.ime && t.ifReg == 0x00 && t.readBus 0xDFEF == 0x12) = true := by decide

/-- The LCD tick at its thresholds: vectors V254, V255, V256, V257, V265. -/
theorem test_tick :
    (base.ticks (List.replicate 19 4)).lcd.counter = 76 ∧ (base.ticks (List.replicate 20 4)).lcd.mode = .transferring ∧
    (base.ticks (List.replicate 19 4 ++ [24])).lcd.counter = 0 ∧
    (base.ticks [24, 24, 24, 8]).lcd.mode = .transferring ∧ (base.ticks (List.replicate 12 24)).lcd.mode = .hblank ∧
    (base.ticks (List.replicate 22 24)).lcd.scanline = 1 ∧ (base.ticks (List.replicate 22 24)).lcd.counter = 24 := by decide

/-- The VBlank transition (50_lcd_ppu.md R322) and the frame's end (R323): vectors V262, V264 at their last tick. -/
theorem test_tick_vblank :
    (let t := State.tick 4 { base with lcd := { base.lcd with mode := .hblank, counter := 200, scanline := 143 } }
     t.lcd.mode = .vblank ∧ t.lcd.scanline = 144 ∧ t.ifReg = 0x01) ∧
    (let t := State.tick 4 { base with lcd := { base.lcd with mode := .vblank, counter := 452, scanline := 153 } }
     t.lcd.mode = .searchingOam ∧ t.lcd.scanline = 0 ∧ t.ifReg = 0x00) := by decide

/-- Tile 1 of 95_test_vectors.md section 2.10. -/
def tileState : State := { base with
  mem := [(0x8010, 0x3C), (0x8011, 0x7E), (0x8012, 0xFF), (0x8015, 0xFF), (0x8016, 0xA5), (0x8017, 0xC3), (0x9800, 0x01)]
  lcd := { base.lcd with control := 0x01, bgp := Palette.fromByte 0xE4 } }

/-- The tile decoder's rows 0 and 3, and a scrolled pixel of the renderer's examples. -/
theorem test_tiles :
    (List.range 8).map (tileState.tilePixel 1 0) = [0, 2, 3, 3, 3, 3, 2, 0] ∧
    (List.range 8).map (tileState.tilePixel 1 3) = [3, 2, 1, 0, 0, 1, 2, 3] ∧
    (List.range 13).map (State.pixelShade { tileState with lcd := { tileState.lcd with scx := 0xFD } }) =
      [0, 0, 0, 0, 2, 3, 3, 3, 3, 2, 0, 0, 0] ∧
    (List.range 10).map (State.pixelShade { tileState with lcd := { tileState.lcd with scanline := 3, bgp := Palette.fromByte 0x1B } }) =
      [0, 1, 2, 3, 3, 2, 1, 0, 3, 3] := by decide

/-- The rendered columns land in the screen buffer, in canonical form. -/
theorem test_renderColumns :
    tileState.renderColumns 10 = [(1, 2), (2, 3), (3, 3), (4, 3), (5, 3), (6, 2)] ∧ Screen.wf (tileState.renderColumns 10) = true := by decide

/-- The host's moves: RaiseIrq, and a session's order (70_reset_and_hazards.md R384). -/
theorem test_host_moves :
    (base.raiseIrq .timer).ifReg = 0x04 ∧ ((base.raiseIrq .timer).raiseIrq .timer).ifReg = 0x04 ∧
    (base.loadImage [0x3E, 0x00]).memAt 0 = 0x3E ∧
    sessionAllowed .afterReset [.loadImage [0x00], .step, .raiseIrq .joypad, .readScreen] = true ∧
    sessionAllowed .afterReset [.step, .loadImage [0x00]] = false := by decide

/-! Witnesses: for each statement with hypotheses, a state and operands that meet them together. -/

theorem witness_DecodeOfEncodeIsTheInstruction : Instr.wellFormed (.ldHlN 0x99) = true := by decide

theorem witness_DecodedBytesEncodeBack : decode [0x36, 0x99, 0x00] = .ok (.ldHlN 0x99) [0x00] := by decide

theorem witness_FirstByteDecidesLength : (0xCB : Byte) = 0xCB ∧ (decodeBytes 0xCB 0x37 0x00).length = 2 := by decide

theorem witness_UnassignedBytesAreDecodeFailures :
    (0xD3 : Byte) ∈ unassignedBytes ∧ (0xFD : Byte) ∈ unassignedBytes ∧ (0x10 : Byte) ∉ unassignedBytes ∧ (0xFE : Byte) ∉ unassignedBytes ∧
    base.fatal = none := by decide

theorem witness_PrefixSelectsExtendedTable :
    (code base [0xCB, 0x37]).readBus (code base [0xCB, 0x37]).pc = 0xCB ∧ base.readBus base.pc ≠ 0xCB := by decide

/-- With an EI delay running out, and without one. -/
theorem witness_StepRunsDecodedInstruction :
    (∃ t, (code { base with imePending := true } [0x3C]).fatal = none ∧ (code { base with imePending := true } [0x3C]).halted = false ∧
      decode [0x3C, 0x00, 0x00] = .ok (.incR .a) [0x00, 0x00] ∧
      exec (.incR .a) (code { base with imePending := true } [0x3C]) = .next t ∧ t.fatal = none ∧ t.imePending = true) ∧
    (∃ t, exec (.incR .a) (code base [0x3C]) = .next t ∧ t.fatal = none ∧ t.imePending = false) :=
  ⟨⟨_, rfl, rfl, by decide, rfl, rfl, rfl⟩, ⟨_, rfl, rfl, rfl⟩⟩

theorem witness_EveryRunningStateSteps :
    State.reset.fatal = none ∧ ({ base with fatal := some (.unimplemented 0x10 .base) } : State).fatal = some (.unimplemented 0x10 .base) := by
  decide

theorem witness_FatalStepChangesOnlyFatal :
    Instr.raises .stop = some (.unimplemented 0x10 .base) ∧ Instr.raises .illegalFD = some (.decodeFailure 0xFD .base) ∧
    (code base [0x10]).fatal = none ∧ (code base [0x10]).halted = false ∧ (code base [0x10]).fetch = .stop ∧
    (code base [0xFD]).fetch = .illegalFD := by decide

theorem witness_OnlyStopAndUnassignedBytesAreFatal :
    (code base [0xDD]).fatal = none ∧ gives (code base [0xDD]) (fun t _ => t.fatal != none) = true ∧
    gives (code base [0x10]) (fun t _ => t.fatal != none) = true := by decide

theorem witness_HaltedStepOnlyWaits :
    ({ base with halted := true, imePending := true } : State).fatal = none ∧
    ({ base with halted := true, imePending := true } : State).halted = true := by decide

/-- Through the end of an EI delay, and through RETI. -/
theorem witness_ImeRisesOnlyByRetiOrEi :
    ((code { base with imePending := true } [0x00]).ime = false ∧ gives (code { base with imePending := true } [0x00]) (fun t _ => t.ime) = true) ∧
    ((code base [0xD9]).ime = false ∧ gives (code base [0xD9]) (fun t _ => t.ime) = true ∧ (code base [0xD9]).fetch = .reti) := by decide

theorem witness_HaltedOnlyWhileNothingPending : gives (code { base with ie := 0x01, ifReg := 0x02 } [0x76]) (fun t _ => t.halted) = true := by
  decide

/-- Nothing pending; pending with IME clear; the lowest and the highest source with IME set. -/
theorem witness_InterruptCheckTakesLowestPending :
    base.ie &&& base.ifReg &&& 0x1F = 0 ∧
    ((0x10 : Byte) &&& 0x10 &&& 0x1F ≠ 0 ∧ base.ime = false) ∧
    (((0x1F : Byte).getLsbD IrqSource.vblank.bit && (0x01 : Byte).getLsbD IrqSource.vblank.bit) = true) ∧
    (((0x1F : Byte).getLsbD IrqSource.joypad.bit && (0x10 : Byte).getLsbD IrqSource.joypad.bit) = true ∧
      ∀ j, j < IrqSource.joypad.bit → ((0x1F : Byte).getLsbD j && (0x10 : Byte).getLsbD j) = false) := by decide

/-- A stack just below the LCD window, and one that wraps. -/
theorem witness_RetiUndoesDispatch :
    isPlain (0xFF40 - 1) = true ∧ isPlain (0xFF40 - 2) = true ∧ isPlain (0x0002 - 1) = true ∧ isPlain (0x0002 - 2) = true := by decide

theorem witness_CostsAreMultiplesOfFour : Instr.raises (.callNn 0x1234) = none ∧ Instr.raises .nop = none ∧ Instr.raises .prefixByte = none := by
  decide

theorem reset_inv : State.reset.Inv := ⟨rfl, rfl, by unfold Lcd.inv; decide⟩

theorem witness_StepKeepsMachineInvariant : State.reset.Inv ∧ ∃ t, step State.reset = .next t :=
  ⟨reset_inv, nextOf State.reset (step State.reset), rfl⟩

theorem witness_HostMovesKeepMachineInvariant : State.reset.Inv := reset_inv

theorem witness_OnlyStackInstructionsWriteSp :
    ∃ t, Instr.wellFormed (.pushQq .bc) = true ∧ exec (.pushQq .bc) base = .next t ∧ t.sp ≠ base.sp :=
  ⟨_, rfl, rfl, by decide⟩

theorem witness_OnlyListedInstructionsWriteFlags :
    ∃ t, Instr.wellFormed .scf = true ∧ exec .scf base = .next t ∧ t.flags ≠ base.flags :=
  ⟨_, rfl, rfl, by decide⟩

theorem witness_NonTransferAdvancesByLength :
    Instr.wellFormed (.ldRrNn .sp 0x1234) = true ∧ Instr.isTransfer (.ldRrNn .sp 0x1234) = false ∧ Instr.raises (.ldRrNn .sp 0x1234) = none := by
  decide

/-- Each clause at the ends of its range; the plain addresses next to the window. -/
theorem witness_ReadRouter :
    (0xFF40 ≤ (0xFF40 : Word).toNat ∧ (0xFF40 : Word).toNat ≤ 0xFF4B) ∧ (0xFF40 ≤ (0xFF4B : Word).toNat ∧ (0xFF4B : Word).toNat ≤ 0xFF4B) ∧
    isPlain 0xFF3F = true ∧ isPlain 0xFF4C = true ∧ isPlain 0x0000 = true ∧ isPlain 0xFFFE = true ∧
    isPlain 0xFF0F = false ∧ isPlain 0xFFFF = false ∧ isPlain 0xFF40 = false ∧ isPlain 0xFF4B = false := by decide

theorem witness_PushThenPopRestores : isPlain (base.sp - 1) = true ∧ isPlain (base.sp - 2) = true := by decide

theorem witness_ImageLoadsAtZero :
    ([0x3E, 0x00] : List Byte).length ≤ 65536 ∧ (List.replicate 65536 (0x00 : Byte)).length ≤ 65536 :=
  ⟨by decide, (List.length_replicate ..).le⟩

/-- A pair that is SP and one that is not; AF and another stack pair. -/
theorem witness_PairAndStackPointerLoads_PushAndPop_PairArithmetic : Pair.bc ≠ .sp ∧ StackPair.bc ≠ .af ∧ StackPair.af = .af := by decide

/-- A condition taken and one not taken. -/
theorem witness_CallsPushReturnAddress_ReturnsPopPc : taken .nz base.flags = true ∧ taken .z base.flags = false := by decide

theorem witness_DaaMakesBcdArithmetic :
    0 < 100 ∧ 99 < 100 ∧ (State.setReg { base with regs := { base.regs with a := bcd 99 } } .b (bcd 0)).regs.a = bcd 99 ∧
    (State.setReg { base with regs := { base.regs with a := bcd 99 } } .b (bcd 0)).regs.b = bcd 0 := by decide

/-- EI then DI with a request pending. -/
theorem witness_EiThenDiNeverEnables :
    let s := code { base with ie := 0x01, ifReg := 0x01 } [0xFB, 0xF3]
    let t := nextOf s (step s)
    s.fatal = none ∧ s.halted = false ∧ s.ime = false ∧ s.imePending = false ∧ s.fetch = .ei ∧ step s = .next t ∧ t.fetch = .di ∧
      ∃ u, step t = .next u :=
  ⟨rfl, rfl, rfl, rfl, by decide, rfl, by decide, _, rfl⟩

/-- Each clause at its threshold: the last counter below it and the first that reaches it, scanline 144 and 153 apart. -/
theorem witness_TickAdvancesModes :
    (LcdMode.searchingOam, 80) ∈ [(LcdMode.searchingOam, 80), (.transferring, 172), (.hblank, 204), (.vblank, 456)] ∧
    (75 + 4 < 80 ∧ 80 ≤ 76 + 4) ∧ (167 + 4 < 172 ∧ 172 ≤ 168 + 4) ∧ (199 + 4 < 204 ∧ 204 ≤ 200 + 4) ∧ (451 + 4 < 456 ∧ 456 ≤ 452 + 4) ∧
    ((142 : Byte) + 1 ≠ 144 ∧ (143 : Byte) + 1 = 144) ∧ (((152 : Byte) + 1).toNat ≤ 153 ∧ 153 < ((153 : Byte) + 1).toNat) := by decide

/-- The VBlank transition's own tick. -/
theorem witness_VblankRequestOnlyAtLine144 :
    let s : State := { base with lcd := { base.lcd with mode := .hblank, counter := 200, scanline := 143 } }
    s.lcd.inv ∧ (s.tick 4).ifReg ≠ s.ifReg ∧ s.tickRaisesFrameDone 4 = true :=
  ⟨by unfold Lcd.inv; decide, by decide, by decide⟩

theorem witness_ScanlineIsRenderedFromTiles :
    base.lcd.control.getLsbD 0 = false ∧ tileState.lcd.control.getLsbD 0 = true ∧ 159 < 256 := by decide

/-- A line of exactly 456 cycles. -/
def shortLine : List Nat := [24, 24, 24, 8] ++ List.replicate 7 24 ++ [4] ++ List.replicate 8 24

/-- A line of exactly 516 cycles, but for its last 24. -/
def longLine : List Nat := [24, 24, 24, 4, 24] ++ List.replicate 8 24 ++ List.replicate 8 24 ++ [8]

/-- Both ends of the range are reached. -/
theorem witness_VisibleLineLasts456To516 :
    base.lcd.mode = .searchingOam ∧ base.lcd.counter = 0 ∧ base.lcd.scanline.toNat < 144 ∧
    (∀ c ∈ shortLine ++ [12], c % 4 = 0 ∧ 4 ≤ c ∧ c ≤ 24) ∧ (∀ c ∈ longLine ++ [24], c % 4 = 0 ∧ 4 ≤ c ∧ c ≤ 24) ∧
    (∀ k, k ≤ shortLine.length → (base.ticks (shortLine.take k)).lcd.scanline = base.lcd.scanline) ∧
    (∀ k, k ≤ longLine.length → (base.ticks (longLine.take k)).lcd.scanline = base.lcd.scanline) ∧
    (base.ticks (shortLine ++ [12])).lcd.scanline = 1 ∧ (shortLine ++ [12]).sum = 456 ∧
    (base.ticks (longLine ++ [24])).lcd.scanline = 1 ∧ (longLine ++ [24]).sum = 516 := by decide

end Sys2Proof.Tests
end

/-! PROOFS. The state's family (10_state.md): one frame for every instruction, the machine's invariant, who writes SP, the flags, PC and
IME, the VBlank request, the stack, AF and the state after reset. -/

namespace Sys2Proof.Machine

/-! ### Field rules of the composite operations -/

@[simp] theorem writeBus16_ime (s : State) (a v : Word) : (s.writeBus16 a v).ime = s.ime := by simp [State.writeBus16]

section setAtHl
variable (s : State) (v : Byte)
@[simp] theorem setAtHl_flags : (s.setAtHl v).flags = s.flags := writeBus_flags s s.hl v
@[simp] theorem setAtHl_pc : (s.setAtHl v).pc = s.pc := writeBus_pc s s.hl v
@[simp] theorem setAtHl_sp : (s.setAtHl v).sp = s.sp := writeBus_sp s s.hl v
@[simp] theorem setAtHl_ime : (s.setAtHl v).ime = s.ime := writeBus_ime s s.hl v
end setAtHl

section putAtHl
variable (s : State) (p : ByteFlags)
@[simp] theorem putAtHl_pc : (s.putAtHl p).pc = s.pc := setAtHl_pc s p.1
@[simp] theorem putAtHl_sp : (s.putAtHl p).sp = s.sp := setAtHl_sp s p.1
@[simp] theorem putAtHl_ime : (s.putAtHl p).ime = s.ime := setAtHl_ime s p.1
end putAtHl

section setPair
variable (s : State) (p : Pair) (v : Word)
@[simp] theorem setPair_flags : (s.setPair p v).flags = s.flags := by rw [setPair_frame]
@[simp] theorem setPair_pc : (s.setPair p v).pc = s.pc := by rw [setPair_frame]
@[simp] theorem setPair_ime : (s.setPair p v).ime = s.ime := by rw [setPair_frame]
@[simp] theorem setPair_mem : (s.setPair p v).mem = s.mem := by rw [setPair_frame]
@[simp] theorem setPair_lcd : (s.setPair p v).lcd = s.lcd := by rw [setPair_frame]
@[simp] theorem setPair_screen : (s.setPair p v).screen = s.screen := by rw [setPair_frame]

/-- A pair write leaves SP alone unless the pair is SP (R17, R99). -/
theorem setPair_sp_of_ne (h : p ≠ .sp) : (s.setPair p v).sp = s.sp := by
  cases p with
  | sp => exact absurd rfl h
  | bc | de | hl => rfl
end setPair

section setStackPair
variable (s : State) (q : StackPair) (v : Word)
@[simp] theorem setStackPair_pc : (s.setStackPair q v).pc = s.pc := by rw [setStackPair_frame]
@[simp] theorem setStackPair_sp : (s.setStackPair q v).sp = s.sp := by rw [setStackPair_frame]
@[simp] theorem setStackPair_ime : (s.setStackPair q v).ime = s.ime := by rw [setStackPair_frame]
@[simp] theorem setStackPair_mem : (s.setStackPair q v).mem = s.mem := by rw [setStackPair_frame]
@[simp] theorem setStackPair_lcd : (s.setStackPair q v).lcd = s.lcd := by rw [setStackPair_frame]
@[simp] theorem setStackPair_screen : (s.setStackPair q v).screen = s.screen := by rw [setStackPair_frame]

/-- A stack pair write leaves the flags alone unless the pair is AF (R14, R99). -/
theorem setStackPair_flags_of_ne (h : q ≠ .af) : (s.setStackPair q v).flags = s.flags := by
  cases q with
  | af => exact absurd rfl h
  | bc | de | hl => rfl
end setStackPair

/-! ### What an instruction keeps of the devices -/

/-- From `s` to `t` memory stayed canonical, the screen is the same, and the LCD controller's state machine did not move: what
every instruction and every taken interrupt does, since stores in the LCD window reach registers alone (R52, R330, R332). -/
structure KeepsDevices (s t : State) : Prop where
  mem      : Memory.wf s.mem = true → Memory.wf t.mem = true
  screen   : t.screen = s.screen
  mode     : t.lcd.mode = s.lcd.mode
  counter  : t.lcd.counter = s.lcd.counter
  scanline : t.lcd.scanline = s.lcd.scanline

/-- A change of registers, flags and control bits alone. -/
theorem KeepsDevices.of_eq {s t : State} (hm : t.mem = s.mem) (hl : t.lcd = s.lcd) (hs : t.screen = s.screen) :
    KeepsDevices s t :=
  ⟨fun h => hm ▸ h, hs, by rw [hl], by rw [hl], by rw [hl]⟩

theorem KeepsDevices.trans {s t u : State} (h : KeepsDevices s t) (h' : KeepsDevices t u) : KeepsDevices s u :=
  ⟨h'.mem ∘ h.mem, h'.screen.trans h.screen, h'.mode.trans h.mode, h'.counter.trans h.counter,
    h'.scanline.trans h.scanline⟩

/-- A store through the router. -/
theorem keepsDevices_writeBus (s : State) (a : Word) (v : Byte) : KeepsDevices s (s.writeBus a v) :=
  ⟨State.writeBus_wf a v, by simp, by simp, by simp, by simp⟩

theorem keepsDevices_writeBus16 (s : State) (a v : Word) : KeepsDevices s (s.writeBus16 a v) :=
  (keepsDevices_writeBus s a _).trans (keepsDevices_writeBus _ _ _)

theorem keepsDevices_push16 (s : State) (v : Word) : KeepsDevices s (s.push16 v) :=
  ⟨State.push16_wf v, by simp, by simp, by simp, by simp⟩

theorem keepsDevices_dispatch (s : State) (k : IrqSource) : KeepsDevices s (s.dispatch k) :=
  ⟨State.dispatch_wf k, by simp, by simp, by simp, by simp⟩

/-! ### The row of the byte 0xCB -/

/-- The row of the bare byte 0xCB runs the extended-table entry of the byte after it (R90). -/
theorem exec_prefixByte (s : State) : exec .prefixByte s = exec (decodeExtended (s.readBus (s.pc + 1))) s := by
  show execPrefixByte s = _
  unfold execPrefixByte decodeExtended
  generalize extOpOf (s.readBus (s.pc + 1)) = x
  generalize r8OfCode (lowField (s.readBus (s.pc + 1))) = y
  cases x <;> cases y <;> rfl

/-- The extended table holds register, memory-byte and bit instructions only (R102). -/
theorem decodeExtended_ordinary (b : Byte) : decodeExtended b ≠ .prefixByte ∧ decodeExtended b ≠ .reti ∧
    (decodeExtended b).writesSp = false := by
  unfold decodeExtended
  generalize extOpOf b = x
  generalize r8OfCode (lowField b) = y
  cases x <;> cases y <;> exact ⟨nofun, nofun, rfl⟩

/-! ### What an instruction can change -/

/-- What running `i` from `s` can have changed in `t`, by the classes of instructions that `Safety` names.  The row of the bare
byte 0xCB has no flags and no length of its own, so those two clauses leave it out. -/
structure ExecFrame (i : Instr) (s t : State) : Prop where
  devices : KeepsDevices s t
  sp      : i.writesSp = false → t.sp = s.sp
  ime     : i ≠ .reti → t.ime = true → s.ime = true
  flags   : i ≠ .prefixByte → i.writesFlags = false → t.flags = s.flags
  pc      : i ≠ .prefixByte → i.isTransfer = false → i.raises = none → t.pc = s.pc + BitVec.ofNat 16 i.length

/-- The frame of every instruction but the bare byte 0xCB.  Where an instruction belongs to the class a clause excludes, the
clause's hypothesis is `true = false`; elsewhere the field is the one before, by computation or by the rules of the store. -/
theorem exec_frame_of_ne {i : Instr} (s : State) (hi : i ≠ .prefixByte) : ∃ t, exec i s = .next t ∧ ExecFrame i s t := by
  cases i with
  | prefixByte => exact absurd rfl hi
  | ldRrNn p _ | incRr p | decRr p =>
    exact ⟨_, rfl, .of_eq (by simp) (by simp) (by simp), fun h => setPair_sp_of_ne s p _ (by rintro rfl; cases h),
      fun _ h => by simpa using h, fun _ _ => by simp, fun _ _ _ => by simp [Instr.length]⟩
  | popQq q =>
    exact ⟨_, rfl, .of_eq (by simp) (by simp) (by simp), nofun, fun _ h => by simpa using h,
      fun _ h => setStackPair_flags_of_ne s.popSp q _ (by rintro rfl; cases h), fun _ _ _ => by simp [Instr.length]⟩
  | jpCcNn | jrCcE | retCc =>
    exact ⟨_, rfl, by split <;> exact .of_eq rfl rfl rfl, fun h => by cases h <;> split <;> rfl,
      fun _ h => by split at h <;> exact h, fun _ _ => by split <;> rfl, nofun⟩
  | callCcNn =>
    refine ⟨_, rfl, ?_, nofun, fun _ h => ?_, fun _ _ => by split <;> simp, nofun⟩
    · split
      · exact (keepsDevices_push16 s _).trans (.of_eq rfl rfl rfl)
      · exact .of_eq rfl rfl rfl
    · split at h <;> simpa using h
  | callNn | rstT | pushQq =>
    exact ⟨_, rfl, (keepsDevices_push16 s _).trans (.of_eq rfl rfl rfl), nofun, fun _ h => by simpa using h,
      fun _ _ => by simp, fun _ h _ => by cases h <;> simp [Instr.length]⟩
  | ldNnSp =>
    exact ⟨_, rfl, (keepsDevices_writeBus16 s _ _).trans (.of_eq rfl rfl rfl), fun _ => by simp,
      fun _ h => by simpa using h, fun _ _ => by simp, fun _ _ _ => by simp [Instr.length]⟩
  | ldBcA | ldDeA | ldHlR | ldHlN | ldhCA | ldhNA | ldNnA | ldHlIncA | ldHlDecA | resHl | setHl =>
    exact ⟨_, rfl, (keepsDevices_writeBus s _ _).trans (.of_eq rfl rfl rfl), fun _ => by simp, fun _ h => by simpa using h,
      fun _ _ => by simp, fun _ _ _ => by simp [Instr.length]⟩
  | incHl | decHl | rlcHl | rrcHl | rlHl | rrHl | slaHl | sraHl | swapHl | srlHl =>
    exact ⟨_, rfl, (keepsDevices_writeBus s _ _).trans (.of_eq rfl rfl rfl), fun _ => by simp, fun _ h => by simpa using h,
      nofun, fun _ _ _ => by simp [Instr.length]⟩
  | di =>
    exact ⟨_, rfl, .of_eq rfl rfl rfl, fun _ => rfl, nofun, fun _ _ => rfl, fun _ _ _ => rfl⟩
  | reti =>
    exact ⟨_, rfl, .of_eq rfl rfl rfl, nofun, fun h => absurd rfl h, fun _ _ => rfl, nofun⟩
  | stop | illegalD3 | illegalDB | illegalDD | illegalE3 | illegalE4 | illegalEB | illegalEC | illegalED | illegalF4 | illegalFC
  | illegalFD =>
    exact ⟨_, rfl, .of_eq rfl rfl rfl, fun _ => rfl, fun _ h => h, fun _ _ => rfl, nofun⟩
  | _ =>
    exact ⟨_, rfl, .of_eq rfl rfl rfl, fun h => by cases h <;> rfl, fun _ h => h, fun _ h => by cases h <;> rfl,
      fun _ h _ => by cases h <;> rfl⟩

/-- The frame of every instruction: the one inversion of `exec` that the statements about SP, the flags, PC, IME and the
machine's invariant use. -/
theorem exec_frame {i : Instr} {s t : State} (h : exec i s = .next t) : ExecFrame i s t := by
  by_cases hi : i = .prefixByte
  · subst hi
    obtain ⟨hp, hr, hsp⟩ := decodeExtended_ordinary (s.readBus (s.pc + 1))
    obtain ⟨u, hu, hf⟩ := exec_frame_of_ne s hp
    rw [exec_prefixByte, hu] at h
    cases h
    exact ⟨hf.devices, fun _ => hf.sp hsp, fun _ => hf.ime hr, fun h => absurd rfl h, fun h => absurd rfl h⟩
  · obtain ⟨u, hu, hf⟩ := exec_frame_of_ne s hi
    rw [hu] at h
    cases h
    exact hf

/-! ### SP, flags, PC and IME -/

/-- Every constructor but the row of the bare byte 0xCB is an instruction (R90). -/
theorem wellFormed_iff {i : Instr} : i.wellFormed = true ↔ i ≠ .prefixByte := decide_eq_true_iff

/-- Settles O22: the frame's clause on SP, read backwards. -/
theorem onlyStackInstructionsWriteSp : Obligations.OnlyStackInstructionsWriteSp := by
  intro i s t _ h hsp
  by_contra hw
  exact hsp ((exec_frame h).sp (Bool.eq_false_of_not_eq_true hw))

/-- Settles O23: the frame's clause on the flags, read backwards. -/
theorem onlyListedInstructionsWriteFlags : Obligations.OnlyListedInstructionsWriteFlags := by
  intro i s t hi h hf
  by_contra hw
  exact hf ((exec_frame h).flags (wellFormed_iff.mp hi) (Bool.eq_false_of_not_eq_true hw))

/-- Settles O24: every instruction answers a next state, and the frame gives its PC. -/
theorem nonTransferAdvancesByLength : Obligations.NonTransferAdvancesByLength := by
  intro i s hi ht hr
  obtain ⟨t, h, hfatal, -⟩ := exec_answers i s
  exact ⟨t, h, (exec_frame h).pc (wellFormed_iff.mp hi) ht hr, hfatal hr⟩

/-- The end of an EI delay that was not sampled does not happen (R21, R341). -/
@[simp] theorem promoteIme_false (s : State) : s.promoteIme false = s := rfl

/-- With no EI delay sampled, what follows an instruction does not set IME (R341, R349). -/
theorem finishStep_ime {s : State} {n : Nat} (h : (s.finishStep false n).ime = true) : s.ime = true := by
  simpa using interruptCheck_ime h

/-- Settles O12: without an EI delay the rest of the step sets no IME, and of the instructions only RETI does. -/
theorem imeRisesOnlyByRetiOrEi : Obligations.ImeRisesOnlyByRetiOrEi := by
  intro s t hs h ht
  have hexec : ∀ u, exec s.fetch s = .next u → u.ime = true → s.fetch = .reti := fun u hu hi => by
    by_contra hne
    exact Bool.false_ne_true (hs.symm.trans ((exec_frame hu).ime hne hi))
  cases hp : s.imePending with
  | true => exact .inl rfl
  | false =>
    obtain ⟨-, ⟨-, rfl⟩ | ⟨hh, u, hu, -, rfl⟩ | ⟨hh, hu, -⟩⟩ := step_cases h
    · rw [hp] at ht
      exact absurd (hs.symm.trans (finishStep_ime ht)) Bool.false_ne_true
    · rw [hp] at ht
      exact .inr ⟨hh, hexec u hu (finishStep_ime ht)⟩
    · exact .inr ⟨hh, hexec t hu ht⟩

/-! ### The machine's invariant (R31, R320 to R325) -/

/-- The invariant looks at the devices alone. -/
theorem KeepsDevices.inv {s t : State} (h : KeepsDevices s t) (hs : s.Inv) : t.Inv where
  mem := h.mem hs.mem
  screen := h.screen ▸ hs.screen
  lcd := by
    unfold Lcd.inv
    rw [h.mode, h.counter, h.scanline]
    exact hs.lcd

/-- A counter below the threshold and a multiple of 4 keeps the invariant. -/
theorem setCounter_inv {s : State} {k : Nat} (hs : s.Inv) (hk : k < s.lcd.mode.threshold) (h4 : k % 4 = 0) :
    (s.setCounter k).Inv := by
  obtain ⟨-, -, hle, hv⟩ := hs.lcd
  exact ⟨hs.mem, hs.screen, hk, h4, hle, hv⟩

/-- No mode ends in the tick that enters it (R320). -/
theorem threshold_pos (m : LcdMode) : 0 < m.threshold := by cases m <;> decide

/-- Outside VBlank the scanline is a visible one. -/
theorem Lcd.inv.scanline_lt {l : Lcd} (h : l.inv) (hm : l.mode ≠ .vblank) : l.scanline.toNat < Config.vblankLine := by
  obtain ⟨-, -, -, hv⟩ := h
  exact Nat.lt_of_not_le fun hle => hm (hv.mpr hle)

@[simp] theorem renderScanline_mem (s : State) : s.renderScanline.mem = s.mem := by rw [renderScanline_frame]
@[simp] theorem renderScanline_ifReg (s : State) : s.renderScanline.ifReg = s.ifReg := by rw [renderScanline_frame]

/-- Rendering columns of a visible scanline keeps the screen buffer's canonical form (R325). -/
theorem renderColumns_wf {s : State} (hy : s.lcd.scanline.toNat < Config.vblankLine) (h : Screen.wf s.screen = true) {n : Nat}
    (hn : n ≤ Config.visibleWidth) : Screen.wf (s.renderColumns n) = true := by
  induction n with
  | zero => exact h
  | succ n ih => exact Screen.wf_put _ hy hn (ih (Nat.le_of_succ_le hn))

theorem renderScanline_wf {s : State} (hy : s.lcd.scanline.toNat < Config.vblankLine) (h : Screen.wf s.screen = true) :
    Screen.wf s.renderScanline.screen = true := by
  unfold State.renderScanline
  split
  · exact renderColumns_wf hy h le_rfl
  · exact h

/-- With the counter cleared, the LCD invariant is what it says of scanline and mode. -/
theorem Lcd.inv_of_counter_zero {l : Lcd} (h0 : l.counter = 0) (hle : l.scanline.toNat ≤ Config.lastLine)
    (hv : l.mode = .vblank ↔ Config.vblankLine ≤ l.scanline.toNat) : l.inv :=
  ⟨h0.trans_lt (threshold_pos _), by rw [h0], hle, hv⟩

/-- The end of HBlank, on a visible scanline, with the counter cleared (R322). -/
theorem leaveHblank_inv {s : State} (hs : s.Inv) (hm : s.lcd.mode ≠ .vblank) (h0 : s.lcd.counter = 0) : s.leaveHblank.Inv := by
  have hy : s.lcd.scanline.toNat < 144 := hs.lcd.scanline_lt hm
  have hly : (s.lcd.scanline + 1).toNat ≤ 144 := by bv_omega
  have hle : (s.lcd.scanline + 1).toNat ≤ Config.lastLine := hly.trans (by decide)
  unfold State.leaveHblank
  by_cases h : (s.lcd.scanline + 1).toNat = Config.vblankLine
  · rw [if_pos h]
    exact ⟨hs.mem, hs.screen, Lcd.inv_of_counter_zero h0 hle (iff_of_true rfl h.ge)⟩
  · rw [if_neg h]
    exact ⟨hs.mem, hs.screen, Lcd.inv_of_counter_zero h0 hle (iff_of_false nofun (Nat.lt_of_le_of_ne hly h).not_ge)⟩

/-- The end of a VBlank line, with the counter cleared (R323). -/
theorem vblankLine_inv {s : State} (hs : s.Inv) (hm : s.lcd.mode = .vblank) (h0 : s.lcd.counter = 0) : s.vblankLine.Inv := by
  obtain ⟨-, -, hle, hv⟩ := hs.lcd
  unfold State.vblankLine
  by_cases h : (s.lcd.scanline + 1).toNat > Config.lastLine
  · rw [if_pos h]
    exact ⟨hs.mem, hs.screen, Lcd.inv_of_counter_zero h0 (Nat.zero_le _)
      (iff_of_false nofun (show ¬ 144 ≤ (0 : Byte).toNat by decide))⟩
  · rw [if_neg h]
    have hge : 144 ≤ (s.lcd.scanline + 1).toNat := by
      have h144 : 144 ≤ s.lcd.scanline.toNat := hv.mp hm
      have h153 : s.lcd.scanline.toNat ≤ 153 := hle
      bv_omega
    exact ⟨hs.mem, hs.screen, Lcd.inv_of_counter_zero h0 (Nat.le_of_not_lt h) (iff_of_true hm hge)⟩

/-- Every transition of the mode state machine keeps the invariant (R320 to R323). -/
theorem modeTransition_inv {s : State} (hs : s.Inv) (h0 : s.lcd.counter = 0) : s.modeTransition.Inv := by
  obtain ⟨-, -, hle, -⟩ := hs.lcd
  cases hm : s.lcd.mode with
  | searchingOam =>
    have hy := hs.lcd.scanline_lt (by simp [hm])
    simp only [State.modeTransition, hm]
    exact ⟨hs.mem, hs.screen, Lcd.inv_of_counter_zero h0 hle (iff_of_false nofun hy.not_ge)⟩
  | transferring =>
    have hy := hs.lcd.scanline_lt (by simp [hm])
    simp only [State.modeTransition, hm]
    exact ⟨by simpa using hs.mem, renderScanline_wf hy hs.screen,
      Lcd.inv_of_counter_zero h0 hle (iff_of_false nofun hy.not_ge)⟩
  | hblank =>
    simp only [State.modeTransition, hm]
    exact leaveHblank_inv hs (by simp [hm]) h0
  | vblank =>
    simp only [State.modeTransition, hm]
    exact vblankLine_inv hs hm h0

/-- A tick of a multiple of 4 keeps the invariant: below the threshold the counter moves, at it one transition starts at 0 (R320). -/
theorem tick_inv {s : State} {n : Nat} (hs : s.Inv) (hn : n % 4 = 0) : (s.tick n).Inv := by
  obtain ⟨-, h4, -, -⟩ := hs.lcd
  by_cases h : s.lcd.counter + n < s.lcd.mode.threshold
  · rw [tick_below h]
    exact setCounter_inv hs h (by omega)
  · rw [tick_reached (Nat.le_of_not_lt h)]
    exact modeTransition_inv (setCounter_inv hs (threshold_pos _) rfl) rfl

/-- The end of an EI delay keeps the invariant. -/
theorem promoteIme_inv {s : State} (b : Bool) (hs : s.Inv) : (s.promoteIme b).Inv :=
  (KeepsDevices.of_eq (by simp) (by simp) (by simp)).inv hs

/-- The interrupt check keeps the invariant: the push of a dispatch is two stores (R349, R350). -/
theorem interruptCheck_inv {s : State} (hs : s.Inv) : s.interruptCheck.Inv := by
  have hawake : KeepsDevices s { s with halted := false } := .of_eq rfl rfl rfl
  rcases interruptCheck_cases s with ⟨-, h⟩ | ⟨-, -, h⟩ | ⟨-, k, -, h⟩
  · rwa [h]
  · rw [h]; exact hawake.inv hs
  · rw [h]; exact (hawake.trans (keepsDevices_dispatch _ k)).inv hs

/-- What follows an instruction in the step keeps the invariant (R340). -/
theorem finishStep_inv {s : State} (b : Bool) {n : Nat} (hs : s.Inv) (hn : n % 4 = 0) : (s.finishStep b n).Inv :=
  interruptCheck_inv (tick_inv (promoteIme_inv b hs) hn)

theorem extCycles_mod_four (b : Byte) : extCycles b % 4 = 0 := by
  unfold extCycles
  split <;> rfl

/-- Every cost is a multiple of 4, so the LCD counter stays one (R392). -/
theorem cycleCost_mod_four (i : Instr) (s : State) : cycleCost i s % 4 = 0 := by
  cases i with
  | prefixByte => exact extCycles_mod_four _
  | jpCcNn | callCcNn | jrCcE | retCc => simp only [cycleCost]; split <;> rfl
  | _ => simp only [cycleCost]

/-- Settles O18: the instruction keeps the devices, and what follows it in the step keeps the invariant. -/
theorem stepKeepsMachineInvariant : Obligations.StepKeepsMachineInvariant := by
  intro s t hs h
  obtain ⟨-, ⟨-, rfl⟩ | ⟨-, u, hu, -, rfl⟩ | ⟨-, ht, -⟩⟩ := step_cases h
  · exact finishStep_inv _ hs rfl
  · exact finishStep_inv _ ((exec_frame hu).devices.inv hs) (cycleCost_mod_four _ _)
  · exact (exec_frame ht).devices.inv hs

/-- Settles O19: empty memory and screen are canonical, and scanline 0 starts in SearchingOAM. -/
theorem resetHasMachineInvariant : Obligations.ResetHasMachineInvariant :=
  ⟨Memory.wf_reset, rfl, by simp [Lcd.inv, State.reset, Lcd.reset, LcdMode.threshold, Config.oamCycles, Config.vblankLine]⟩

/-! ### The VBlank request (R322, R326) -/

/-- The scanline before the VBlank transition (R322). -/
theorem succ_eq_vblankLine_iff (y : Byte) : (y + 1).toNat = Config.vblankLine ↔ y = 143 := by
  show _ = 144 ↔ _
  bv_omega

/-- A tick raises `frame_done` exactly when it leaves HBlank for scanline 144 (R322, R326). -/
theorem tickRaisesFrameDone_iff (s : State) (n : Nat) : s.tickRaisesFrameDone n = true ↔
    s.lcd.mode = .hblank ∧ s.lcd.mode.threshold ≤ s.lcd.counter + n ∧ s.lcd.scanline = 143 := by
  simp only [State.tickRaisesFrameDone, Bool.and_eq_true, decide_eq_true_eq, succ_eq_vblankLine_iff, and_assoc]
  constructor
  · rintro ⟨hm, h⟩; exact ⟨hm, hm ▸ h⟩
  · rintro ⟨hm, h⟩; exact ⟨hm, hm ▸ h⟩

/-- The tick that raises `frame_done` enters VBlank on scanline 144 and latches its request (R322). -/
theorem tick_of_frameDone {s : State} {n : Nat} (h : s.tickRaisesFrameDone n = true) :
    (s.tick n).lcd.scanline = 144 ∧ (s.tick n).lcd.mode = .vblank ∧ (s.tick n).ifReg = s.ifReg ||| 0x01 := by
  obtain ⟨hm, hc, hy⟩ := (tickRaisesFrameDone_iff s n).mp h
  rw [tick_reached hc]
  simp [State.modeTransition, hm, State.leaveHblank, hy, Config.vblankLine, oneBit, IrqSource.bit]

/-- Every other tick leaves IF alone, and from scanline 143 outside VBlank it does not move the scanline (R320 to R323). -/
theorem tick_of_not_frameDone {s : State} {n : Nat} (h : s.tickRaisesFrameDone n = false) :
    (s.tick n).ifReg = s.ifReg ∧
      (s.lcd.mode ≠ .vblank → s.lcd.scanline = 143 → (s.tick n).lcd.scanline = s.lcd.scanline) := by
  by_cases hc : s.lcd.counter + n < s.lcd.mode.threshold
  · rw [tick_below hc]; exact ⟨rfl, fun _ _ => rfl⟩
  rw [tick_reached (Nat.le_of_not_lt hc)]
  cases hm : s.lcd.mode with
  | searchingOam | transferring => simp [State.modeTransition, hm]
  | hblank =>
    have hy : s.lcd.scanline ≠ 143 := fun hy => by
      rw [(tickRaisesFrameDone_iff s n).mpr ⟨hm, Nat.le_of_not_lt hc, hy⟩] at h
      cases h
    simp only [State.modeTransition, State.leaveHblank, setCounter_lcd, hm, succ_eq_vblankLine_iff]
    rw [if_neg hy]
    exact ⟨rfl, fun _ h => absurd h hy⟩
  | vblank =>
    refine ⟨?_, fun h => absurd rfl h⟩
    simp only [State.modeTransition, setCounter_lcd, hm, State.vblankLine]
    split <;> rfl

/-- Settles O58, by whether the tick raises `frame_done`. -/
theorem vblankRequestOnlyAtLine144 : Obligations.VblankRequestOnlyAtLine144 := by
  intro s n hs
  cases hf : s.tickRaisesFrameDone n with
  | true =>
    obtain ⟨hly, hmode, hif⟩ := tick_of_frameDone hf
    obtain ⟨-, -, hy⟩ := (tickRaisesFrameDone_iff s n).mp hf
    exact ⟨fun _ => ⟨hy, hly, hif⟩, iff_of_true rfl ⟨hy, hly⟩, fun _ => ⟨hmode, hif⟩⟩
  | false =>
    obtain ⟨hif, hkeep⟩ := tick_of_not_frameDone hf
    refine ⟨fun hne => absurd hif hne, iff_of_false nofun ?_, nofun⟩
    rintro ⟨hy, hly⟩
    have hm : s.lcd.mode ≠ .vblank := fun hm => by
      obtain ⟨-, -, -, hv⟩ := hs
      have hge := hv.mp hm
      rw [hy] at hge
      exact absurd hge (by decide)
    rw [hkeep hm hy, hy] at hly
    exact absurd hly (by decide)

/-! ### The stack, AF and the reset state -/

/-- Settles O28: the push rules of the stack, and SP's two moves cancel. -/
theorem pushThenPopRestores : Obligations.PushThenPopRestores := by
  intro s v
  refine ⟨⟨push16_sp s v, untouchedBut_push16 s v⟩, ⟨rfl, rfl⟩, fun h1 h2 => ⟨popValue_push16 s v h1 h2, ?_⟩⟩
  rw [popSp_sp, push16_sp]
  bv_omega

/-- What is written to F reads back with its low nibble zero (R13, R14). -/
theorem Flags.toByte_fromByte (b : Byte) : (Flags.fromByte b).toByte = b &&& 0xF0 := by revert b; decide

/-- The flags are what their byte says (R12, R14). -/
theorem Flags.fromByte_toByte (f : Flags) : Flags.fromByte f.toByte = f := by
  obtain ⟨z, n, h, c⟩ := f
  revert z n h c; decide

/-- The low nibble of F has no storage (R12, R13). -/
theorem Flags.toByte_and_lowNibble (f : Flags) : f.toByte &&& 0x0F = 0 := by
  obtain ⟨z, n, h, c⟩ := f
  revert z n h c; decide

/-- A mask of a pair is a mask of its halves (R11). -/
theorem pack_and_pack (a b c d : Byte) : pack a b &&& pack c d = pack (a &&& c) (b &&& d) := by
  refine BitVec.eq_of_getLsbD_eq fun i _ => ?_
  simp only [BitVec.getLsbD_and, getLsbD_pack]
  split <;> rfl

/-- A write of AF, read back (R14). -/
theorem af_setAf (s : State) (v : Word) : (s.setAf v).af = pack (hiByte v) (loByte v &&& 0xF0) := by
  rw [← Flags.toByte_fromByte]; rfl

/-- Writing back what AF reads changes nothing (R13, R14). -/
theorem setAf_af (s : State) : s.setAf s.af = s := by
  have hf : Flags.fromByte (loByte s.af) = s.flags := by rw [State.af, loByte_pack, Flags.fromByte_toByte]
  have ha : hiByte s.af = s.regs.a := hiByte_pack _ _
  rw [State.setAf, hf, ha]; rfl

/-- Settles O29: AF is A packed with F, so its halves and F's own laws say all of it. -/
theorem afKeepsFlagsAndZeroesLowNibble : Obligations.AfKeepsFlagsAndZeroesLowNibble := by
  intro s v
  refine ⟨rfl, rfl, ?_, ?_, ?_, ?_, ?_⟩
  · simp [State.setAf, Flags.fromByte, loByte]
  · calc (s.setAf v).af = pack (hiByte v &&& 0xFF) (loByte v &&& 0xF0) := by
          rw [af_setAf, show (0xFF : Byte) = BitVec.allOnes 8 from rfl, BitVec.and_allOnes]
      _ = pack (hiByte v) (loByte v) &&& pack 0xFF 0xF0 := (pack_and_pack _ _ _ _).symm
      _ = v &&& 0xFFF0 := by rw [pack_hi_lo]; rfl
  · calc s.af &&& 0x000F = pack (s.regs.a &&& 0) (s.flags.toByte &&& 0x0F) := pack_and_pack _ _ 0 0x0F
      _ = pack 0 0 := by rw [Flags.toByte_and_lowNibble, show s.regs.a &&& 0 = 0 from BitVec.and_zero]
  · rw [setAf_af]
  · rw [setAf_af]

/-- The LCD registers after reset: STAT reads bit 7 set, a coincidence on line 0 and the mode's code, the others 0 (R40, R331). -/
theorem reset_lcd_read (a : Word) : Lcd.reset.read a = if a = 0xFF41 then 0x86 else 0x00 := by
  by_cases h : a = 0xFF41
  · subst h; rfl
  · simp only [Lcd.read, h, ↓reduceIte]
    repeat' split
    all_goals rfl

/-- Settles O21: the fields are given, and a read of each kind of address is a read of one of them. -/
theorem resetStateReads : Obligations.ResetStateReads := by
  refine ⟨rfl, rfl, rfl, fun r => by cases r <;> rfl, rfl, rfl, rfl, rfl, rfl, rfl, rfl, fun a => ?_, fun _ _ => rfl⟩
  rcases address_cases a with rfl | rfl | h | h
  · rfl
  · rfl
  · rw [readBus_lcd _ h]; exact reset_lcd_read a
  · have h41 : a ≠ 0xFF41 := by rintro rfl; revert h; decide
    rw [readBus_plain _ h, if_neg h41]; rfl

end Sys2Proof.Machine

/-! PROOFS. The memory family (20_memory.md): the step of every state, the router, what a store leaves, the image load. -/

namespace Sys2Proof.Machine

/-! ### The three kinds of step (R340, R341, R345) -/

section step
variable {s t : State}

/-- With a latched fatal condition there is no step (R345). -/
theorem step_of_fatal {f : Fatal} (hf : s.fatal = some f) : step s = .fault (.fatalLatched f) := by
  rw [step, sequenceStep, hf]

/-- A halted step only waits (R341). -/
theorem step_of_halted (hf : s.fatal = none) (hh : s.halted = true) :
    step s = .next (s.finishStep s.imePending Config.haltedCycles) := by
  rw [step, sequenceStep, hf, hh]; rfl

/-- An instruction that raises no fatal condition is followed by the rest of the step (R340, R341). -/
theorem step_of_exec (hf : s.fatal = none) (hh : s.halted = false) (he : exec s.fetch s = .next t) (ht : t.fatal = none) :
    step s = .next (t.finishStep s.imePending (cycleCost s.fetch s)) := by
  simp [step, sequenceStep, hf, hh, he, ht]

/-- A step whose instruction raises a fatal condition ends there (R345). -/
theorem step_of_exec_fatal (hf : s.fatal = none) (hh : s.halted = false) (he : exec s.fetch s = .next t) {f : Fatal}
    (ht : t.fatal = some f) : step s = .next t := by
  simp [step, sequenceStep, hf, hh, he, ht]

end step

/-- Settles O8: a halted machine waits, and one that is not halted runs an instruction, which always answers. -/
theorem everyRunningStateSteps : Obligations.EveryRunningStateSteps := by
  refine fun s => ⟨fun hf => ?_, fun f => step_of_fatal⟩
  cases hh : s.halted with
  | true => exact ⟨_, step_of_halted hf hh⟩
  | false =>
    obtain ⟨t, he, -, -⟩ := exec_answers s.fetch s
    cases ht : t.fatal with
    | none => exact ⟨_, step_of_exec hf hh he ht⟩
    | some f => exact ⟨t, step_of_exec_fatal hf hh he ht⟩

/-! ### The router and a store -/

/-- Settles O25: the router's rule for each of the four kinds of address. -/
theorem readRouter : Obligations.ReadRouter := by
  refine fun s a => ⟨?_, ?_, fun hlo hhi => readBus_lcd s ((isLcdAddr_iff a).mpr ⟨hlo, hhi⟩), readBus_plain s⟩
  · rintro rfl; exact readBus_if s
  · rintro rfl; exact readBus_ie s

/-- Settles O26: the frame of a store through the router, with the CPU's registers. -/
theorem storeReadsBackAndTouchesNothingElse : Obligations.StoreReadsBackAndTouchesNothingElse := fun s a v =>
  ⟨writeBus_regs s a v, writeBus_flags s a v, writeBus_pc s a v, writeBus_sp s a v, untouchedBut_writeBus s a v⟩

/-! ### The image load (R57) -/

/-- The flat array after a write of one byte. -/
@[simp] theorem memAt_setMemAt (s : State) (a b : Nat) (v : Byte) :
    (s.setMemAt a v).memAt b = if b = a then v else s.memAt b := Store.get_put s.mem a b v

/-- The image load changes the flat array alone. -/
theorem loadFrom_frame (image : List Byte) (s : State) (a : Nat) :
    s.loadFrom a image = { s with mem := (s.loadFrom a image).mem } := by
  induction image generalizing s a with
  | nil => rfl
  | cons b bs ih =>
    rw [State.loadFrom]
    split
    · rw [ih]; rfl
    · rfl

/-- An image that fits above `a` puts its byte `j` at address `a + j`, and no byte anywhere else. -/
theorem memAt_loadFrom (image : List Byte) (s : State) (a i : Nat) (hfit : a + image.length ≤ Config.memSize) :
    (s.loadFrom a image).memAt i = if a ≤ i then image.getD (i - a) (s.memAt i) else s.memAt i := by
  induction image generalizing s a with
  | nil => simp [State.loadFrom]
  | cons b bs ih =>
    rw [List.length_cons] at hfit
    rw [State.loadFrom, if_pos (by omega), ih _ _ (by omega), memAt_setMemAt]
    rcases lt_trichotomy i a with hlt | rfl | hgt
    · have hle : ¬ a ≤ i := by omega
      have hle' : ¬ a + 1 ≤ i := by omega
      rw [if_neg hle', if_neg hle, if_neg hlt.ne]
    · simp
    · have hsub : i - a = i - (a + 1) + 1 := by omega
      rw [if_pos (Nat.succ_le_of_lt hgt), if_neg hgt.ne', if_pos hgt.le, hsub, List.getD_cons_succ]

/-- Settles O31: the load from address 0, and its frame. -/
theorem imageLoadsAtZero : Obligations.ImageLoadsAtZero := by
  refine fun s image hlen => ⟨fun i => ?_, ?_⟩
  · rw [State.loadImage, memAt_loadFrom image s 0 i (by simpa [Config.memSize] using hlen), if_pos i.zero_le, Nat.sub_zero]
    by_cases hi : i < image.length
    · rw [dif_pos hi, List.getD_eq_getElem _ _ hi]
    · rw [dif_neg hi, List.getD_eq_default _ _ (Nat.le_of_not_lt hi)]
  · rw [State.loadImage, loadFrom_frame]

end Sys2Proof.Machine

/-! PROOFS. The encoding family (30_encoding.md): the bytes of a decoded instruction, so that decoding and encoding are inverse, the
length, the unassigned bytes, the byte 0xCB. -/

namespace Sys2Proof

open Machine

/-! ### Operand fields (R92 to R100) -/

/-- The 3-bit code of an operand: a register's, or 6 for the memory byte at HL (R94). -/
def operandCode (o : Option R8) : BitVec 3 := o.elim 6 R8.code

@[simp] theorem operandCode_r8OfCode (k : BitVec 3) : operandCode (r8OfCode k) = k := by revert k; decide

@[simp] theorem code_pairOfCode (k : BitVec 2) : (pairOfCode k).code = k := by revert k; decide

@[simp] theorem code_stackPairOfCode (k : BitVec 2) : (stackPairOfCode k).code = k := by revert k; decide

@[simp] theorem code_condOfCode (k : BitVec 2) : (condOfCode k).code = k := by revert k; decide

/-- The eight bit indices and restart targets (R100). -/
theorem bitIndex_cases (k : BitVec 3) : k = 0 ∨ k = 1 ∨ k = 2 ∨ k = 3 ∨ k = 4 ∨ k = 5 ∨ k = 6 ∨ k = 7 := by
  revert k; decide

/-- A fact of every register's row and of the `(HL)` row is one of the row that a register field selects (R94). -/
theorem byOperand_induction {P : BitVec 3 → Instr → Prop} {f : R8 → Instr} {i : Instr} (hr : ∀ r, P r.code (f r))
    (hi : P 6 i) (k : BitVec 3) : P k (byOperand k f i) := by
  have hk := operandCode_r8OfCode k
  unfold byOperand
  cases ho : r8OfCode k with
  | none => rw [ho] at hk; exact hk ▸ hi
  | some r => rw [ho] at hk; exact hk ▸ hr r

/-! ### What a match of a table row says of the byte (R101, R109): the row's fixed bits, and its fields between them -/

section rowMatches
variable {b p : Byte}

theorem eq_of_rowMatches (h : rowMatches b 0xFF p = true) : b = p := by
  rw [rowMatches, beq_iff_eq] at h
  exact BitVec.and_allOnes.symm.trans h

theorem eq_pairField_of_rowMatches (h : rowMatches b 0xCF p = true) :
    b = p.extractLsb' 6 2 ++ pairField b ++ p.extractLsb' 0 4 := by
  obtain rfl : b &&& 0xCF = p := by simpa [rowMatches] using h
  revert b; decide

theorem eq_midField_of_rowMatches (h : rowMatches b 0xC7 p = true) :
    b = p.extractLsb' 6 2 ++ midField b ++ p.extractLsb' 0 3 := by
  obtain rfl : b &&& 0xC7 = p := by simpa [rowMatches] using h
  revert b; decide

theorem eq_condField_of_rowMatches (h : rowMatches b 0xE7 p = true) :
    b = p.extractLsb' 5 3 ++ condField b ++ p.extractLsb' 0 3 := by
  obtain rfl : b &&& 0xE7 = p := by simpa [rowMatches] using h
  revert b; decide

theorem eq_lowField_of_rowMatches (h : rowMatches b 0xF8 p = true) : b = p.extractLsb' 3 5 ++ lowField b := by
  obtain rfl : b &&& 0xF8 = p := by simpa [rowMatches] using h
  revert b; decide

theorem eq_midField_lowField_of_rowMatches (h : rowMatches b 0xC0 p = true) :
    b = p.extractLsb' 6 2 ++ midField b ++ lowField b := by
  obtain rfl : b &&& 0xC0 = p := by simpa [rowMatches] using h
  revert b; decide

end rowMatches

/-! ### The bytes of a decoded instruction -/

/-- The bytes of `i` are the first of the three bytes, as many as `i` has (R90, R91). -/
def Instr.Spells (i : Instr) (b0 b1 b2 : Byte) : Prop := encode i = [b0, b1, b2].take i.length

namespace Instr.Spells
variable {b n1 n2 p m : Byte} {i j : Instr}

/-- One row of the base table and the rows after it; `q` gathers that no row before it matches, which the last row needs. -/
theorem row {q : Bool} (hi : rowMatches b m p = true → i.Spells b n1 n2)
    (hj : (q && !rowMatches b m p) = true → j.Spells b n1 n2) :
    q = true → (if rowMatches b m p then i else j).Spells b n1 n2 := by
  intro hq
  cases h : rowMatches b m p with
  | true => exact hi h
  | false => exact hj (by rw [hq, h]; rfl)

/-- A row with no field. -/
theorem fixed (h : i.Spells p n1 n2) : rowMatches b 0xFF p = true → i.Spells b n1 n2 :=
  fun hb => eq_of_rowMatches hb ▸ h

/-- A row with field rr (R99). -/
theorem pair {f : Pair → Instr} (h : ∀ r : Pair, (f r).Spells (p.extractLsb' 6 2 ++ r.code ++ p.extractLsb' 0 4) n1 n2) :
    rowMatches b 0xCF p = true → (f (pairOfCode (pairField b))).Spells b n1 n2 := fun hb => by
  simpa [← eq_pairField_of_rowMatches hb] using h (pairOfCode (pairField b))

/-- A row with field qq (R99). -/
theorem stackPair {f : StackPair → Instr}
    (h : ∀ q : StackPair, (f q).Spells (p.extractLsb' 6 2 ++ q.code ++ p.extractLsb' 0 4) n1 n2) :
    rowMatches b 0xCF p = true → (f (stackPairOfCode (pairField b))).Spells b n1 n2 := fun hb => by
  simpa [← eq_pairField_of_rowMatches hb] using h (stackPairOfCode (pairField b))

/-- A row with field cc (R95). -/
theorem cond {f : Cond → Instr} (h : ∀ cc : Cond, (f cc).Spells (p.extractLsb' 5 3 ++ cc.code ++ p.extractLsb' 0 3) n1 n2) :
    rowMatches b 0xE7 p = true → (f (condOfCode (condField b))).Spells b n1 n2 := fun hb => by
  simpa [← eq_condField_of_rowMatches hb] using h (condOfCode (condField b))

/-- The two rows of an operand in bits 5..3 (R94). -/
theorem midOperand {f : R8 → Instr} (hr : ∀ r : R8, (f r).Spells (p.extractLsb' 6 2 ++ r.code ++ p.extractLsb' 0 3) n1 n2)
    (hi : i.Spells (p.extractLsb' 6 2 ++ 6#3 ++ p.extractLsb' 0 3) n1 n2) :
    rowMatches b 0xC7 p = true → (byOperand (midField b) f i).Spells b n1 n2 := fun hb => by
  have h := byOperand_induction (P := fun k x => x.Spells (p.extractLsb' 6 2 ++ k ++ p.extractLsb' 0 3) n1 n2) hr hi (midField b)
  rwa [← eq_midField_of_rowMatches hb] at h

/-- The two rows of an operand in bits 2..0 (R94). -/
theorem lowOperand {f : R8 → Instr} (hr : ∀ r : R8, (f r).Spells (p.extractLsb' 3 5 ++ r.code) n1 n2)
    (hi : i.Spells (p.extractLsb' 3 5 ++ 6#3) n1 n2) :
    rowMatches b 0xF8 p = true → (byOperand (lowField b) f i).Spells b n1 n2 := fun hb => by
  have h := byOperand_induction (P := fun k x => x.Spells (p.extractLsb' 3 5 ++ k) n1 n2) hr hi (lowField b)
  rwa [← eq_lowField_of_rowMatches hb] at h

/-- The rows of the load block, HALT among them (R94). -/
theorem load : rowMatches b 0xC0 0x40 = true → (decodeLoad b).Spells b n1 n2 := fun hb => by
  have h : b = 0b01#2 ++ operandCode (r8OfCode (midField b)) ++ operandCode (r8OfCode (lowField b)) := by
    simpa using eq_midField_lowField_of_rowMatches hb
  unfold decodeLoad
  generalize r8OfCode (midField b) = dst at h ⊢
  generalize r8OfCode (lowField b) = src at h ⊢
  subst h
  cases dst <;> cases src <;> rfl

/-- The row of RST (R100). -/
theorem restart : rowMatches b 0xC7 0xC7 = true → (Instr.rstT (midField b)).Spells b n1 n2 :=
  fun hb => congrArg (· :: []) (eq_midField_of_rowMatches hb).symm

end Instr.Spells

open Instr.Spells in
/-- Every entry of the base table has the bytes it is read from.  The rows with no field agree by computation; those with fields
stand in the table's order, each with the rule of its field; the last row is reached by the byte alone that no row before it matches. -/
theorem spells_decodeBase (b n1 n2 : Byte) : (decodeBase b n1 n2).Spells b n1 n2 := by
  have hnn := immBytes_append n2 n1
  unfold decodeBase
  generalize n2 ++ n1 = nn at hnn ⊢
  obtain ⟨rfl, rfl⟩ : nn.extractLsb' 0 8 = n1 ∧ nn.extractLsb' 8 8 = n2 := by simpa [immBytes] using hnn
  -- before the first row no row has failed to match
  refine (?_ : true = true → _) rfl
  repeat' apply row
  any_goals exact fixed rfl
  exacts [
    pair (f := (.ldRrNn · nn)) fun _ => rfl, pair fun _ => rfl,
    midOperand (fun _ => rfl) rfl, midOperand (fun _ => rfl) rfl, midOperand (fun _ => rfl) rfl,
    pair fun _ => rfl, pair fun _ => rfl, cond (f := (.jrCcE · _)) fun _ => rfl, load,
    lowOperand (fun _ => rfl) rfl, lowOperand (fun _ => rfl) rfl, lowOperand (fun _ => rfl) rfl, lowOperand (fun _ => rfl) rfl,
    lowOperand (fun _ => rfl) rfl, lowOperand (fun _ => rfl) rfl, lowOperand (fun _ => rfl) rfl, lowOperand (fun _ => rfl) rfl,
    cond fun _ => rfl, stackPair fun _ => rfl, cond (f := (.jpCcNn · nn)) fun _ => rfl,
    cond (f := (.callCcNn · nn)) fun _ => rfl, stackPair fun _ => rfl, restart,
    fun _ => by obtain rfl : b = 0xFD := (by revert b; decide); rfl]

/-- Bits 7..3 of the extended-table opcodes of an operation (R102). -/
def ExtOp.code : ExtOp → BitVec 5
  | .rlc => 0 | .rrc => 1 | .rl => 2 | .rr => 3 | .sla => 4 | .sra => 5 | .swap => 6 | .srl => 7
  | .testBit k => 0b01#2 ++ k
  | .resetBit k => 0b10#2 ++ k
  | .setBit k => 0b11#2 ++ k

/-- An extended-table opcode is its operation and its operand (R102). -/
theorem extOpOf_lowField (b : Byte) : (extOpOf b).code ++ lowField b = b := by revert b; decide

/-- Every entry of the extended table has the byte 0xCB and the byte it is read from (R102). -/
theorem encode_decodeExtended (b : Byte) : encode (decodeExtended b) = [0xCB, b] := by
  have h : (extOpOf b).code ++ operandCode (r8OfCode (lowField b)) = b := by simpa using extOpOf_lowField b
  unfold decodeExtended
  generalize extOpOf b = op at h ⊢
  generalize r8OfCode (lowField b) = o at h ⊢
  subst h
  cases op <;> cases o <;> rfl

theorem length_decodeExtended (b : Byte) : (decodeExtended b).length = 2 := by
  unfold decodeExtended
  generalize extOpOf b = op
  generalize r8OfCode (lowField b) = o
  cases op <;> cases o <;> rfl

/-- A decoded instruction has the bytes it was read from. -/
theorem spells_decodeBytes (b0 b1 b2 : Byte) : (decodeBytes b0 b1 b2).Spells b0 b1 b2 := by
  unfold decodeBytes
  split
  case isTrue h => rw [h, Instr.Spells, encode_decodeExtended, length_decodeExtended]; rfl
  case isFalse => exact spells_decodeBase b0 b1 b2

/-- The bare byte 0xCB is never decoded (R90): it selects the extended table, and no other byte spells its row. -/
theorem decodeBytes_ne_prefixByte (b0 b1 b2 : Byte) : decodeBytes b0 b1 b2 ≠ .prefixByte := by
  unfold decodeBytes
  split
  case isTrue => exact (decodeExtended_ordinary b1).1
  case isFalse h =>
    intro he
    have hs := spells_decodeBase b0 b1 b2
    rw [he] at hs
    cases hs
    exact h rfl

/-- Where the three bytes spell an instruction, it is the one decoded. -/
theorem decodeBytes_of_spells {i : Instr} {b0 b1 b2 : Byte} (hi : i ≠ .prefixByte) (h : i.Spells b0 b1 b2) :
    decodeBytes b0 b1 b2 = i := by
  cases i with
  | prefixByte => exact absurd rfl hi
  | incRr r | decRr r | addHlRr r => cases h; cases r <;> rfl
  | pushQq q | popQq q => cases h; cases q <;> rfl
  | jrCcE cc | retCc cc => cases h; cases cc <;> rfl
  | incR r | decR r | ldRN r | ldRHl r | ldHlR r | addAR r | adcAR r | subR r | sbcAR r | andR r | xorR r | orR r | cpR r
  | rlcR r | rrcR r | rlR r | rrR r | slaR r | sraR r | swapR r | srlR r => cases h; cases r <;> rfl
  | ldRR dst src => cases h; cases dst <;> cases src <;> rfl
  | ldNnSp nn | jpNn nn | callNn nn | ldNnA nn | ldANn nn => cases h; exact congrArg _ (immBytes_join nn)
  | ldRrNn r nn => cases h; cases r <;> exact congrArg _ (immBytes_join nn)
  | jpCcNn cc nn | callCcNn cc nn => cases h; cases cc <;> exact congrArg _ (immBytes_join nn)
  | rstT k | bitHl k | resHl k | setHl k =>
    cases h; rcases bitIndex_cases k with rfl | rfl | rfl | rfl | rfl | rfl | rfl | rfl <;> rfl
  | bitR k r | resR k r | setR k r =>
    cases h; rcases bitIndex_cases k with rfl | rfl | rfl | rfl | rfl | rfl | rfl | rfl <;> cases r <;> rfl
  | _ => cases h; rfl

/-- Decoding of three bytes: the one instruction that they spell (R90). -/
theorem decodeBytes_eq_iff {i : Instr} {b0 b1 b2 : Byte} :
    decodeBytes b0 b1 b2 = i ↔ i.wellFormed = true ∧ i.Spells b0 b1 b2 := by
  rw [wellFormed_iff]
  constructor
  · rintro rfl
    exact ⟨decodeBytes_ne_prefixByte b0 b1 b2, spells_decodeBytes b0 b1 b2⟩
  · rintro ⟨hi, h⟩
    exact decodeBytes_of_spells hi h

/-- Every instruction's encoding has its length, 1 to 3 bytes (R91). -/
theorem encodedLength (i : Instr) : Laws.EncodedLength.Statement i := by
  cases i <;> exact ⟨rfl, Nat.le_of_ble_eq_true rfl, Nat.le_of_ble_eq_true rfl⟩

/-- A decoded instruction's first byte is the first byte decoded. -/
theorem head?_encode_decodeBytes (b0 b1 b2 : Byte) : (encode (decodeBytes b0 b1 b2)).head? = some b0 := by
  obtain ⟨-, h1, -⟩ := encodedLength (decodeBytes b0 b1 b2)
  obtain ⟨n, hn⟩ := Nat.exists_eq_add_of_le' h1
  rw [spells_decodeBytes, hn]; rfl

/-! ### Decoding and encoding of byte sequences -/

/-- `decode` answers an instruction exactly when it is the one its first bytes decode to and all of its bytes are there. -/
theorem decode_cons_eq_ok_iff {b0 : Byte} {bs rest : List Byte} {i : Instr} : decode (b0 :: bs) = .ok i rest ↔
    decodeBytes b0 (bs.getD 0 0) (bs.getD 1 0) = i ∧ i.length ≤ bs.length + 1 ∧ bs.drop (i.length - 1) = rest := by
  constructor
  · intro h
    unfold decode at h
    simp only at h
    split at h
    case isTrue hl => cases h; exact ⟨rfl, hl, rfl⟩
    case isFalse => split at h <;> cases h
  · rintro ⟨hd, hl, rfl⟩
    exact decode_cons hd hl

/-- For an instruction that ends within the sequence, the zeros that `decode` reads past the sequence's end do not matter. -/
theorem spells_getD_iff {i : Instr} {b0 : Byte} {bs : List Byte} (hl : i.length ≤ bs.length + 1) :
    i.Spells b0 (bs.getD 0 0) (bs.getD 1 0) ↔ encode i = (b0 :: bs).take i.length := by
  obtain ⟨-, -, h3⟩ := encodedLength i
  have h : [b0, bs.getD 0 0, bs.getD 1 0].take i.length = (b0 :: bs).take i.length := by
    generalize i.length = n at hl h3
    match n, bs with
    | 0, _ | 1, _ | 2, _ :: _ | 3, _ :: _ :: _ => rfl
    | 2, [] | 3, [] | 3, [_] => simp at hl
  rw [Instr.Spells, h]

/-- `decode` answers `i` and `rest` exactly on the bytes of the instruction `i` followed by `rest` (R90, R101, R102). -/
theorem decode_eq_ok_iff {bs rest : List Byte} {i : Instr} :
    decode bs = .ok i rest ↔ i.wellFormed = true ∧ encode i ++ rest = bs := by
  obtain ⟨hlen, h1, -⟩ := encodedLength i
  cases bs with
  | nil =>
    refine ⟨nofun, fun ⟨_, h⟩ => ?_⟩
    rw [(List.append_eq_nil_iff.mp h).1, List.length_nil] at hlen
    omega
  | cons b0 bs =>
    have hdrop : bs.drop (i.length - 1) = (b0 :: bs).drop i.length := by
      obtain ⟨n, hn⟩ := Nat.exists_eq_add_of_le' h1
      rw [hn]; rfl
    rw [decode_cons_eq_ok_iff, decodeBytes_eq_iff, hdrop]
    constructor
    · rintro ⟨⟨hwf, hs⟩, hl, rfl⟩
      rw [(spells_getD_iff hl).mp hs, List.take_append_drop]
      exact ⟨hwf, rfl⟩
    · rintro ⟨hwf, h⟩
      have hl : i.length ≤ bs.length + 1 := by
        have hcount := congrArg List.length h
        rw [List.length_append, hlen, List.length_cons] at hcount
        omega
      rw [spells_getD_iff hl, ← h, List.take_left' hlen, List.drop_left' hlen]
      exact ⟨⟨hwf, rfl⟩, hl, rfl⟩

/-- Settles O1: the characterisation of `decode`, read backwards. -/
theorem decodeOfEncodeIsTheInstruction : Obligations.DecodeOfEncodeIsTheInstruction :=
  fun _ _ hi => decode_eq_ok_iff.mpr ⟨hi, rfl⟩

/-- Settles O2: the characterisation of `decode`. -/
theorem decodedBytesEncodeBack : Obligations.DecodedBytesEncodeBack :=
  fun _ _ _ => decode_eq_ok_iff.mp

/-- Settles O3: each sequence is the instruction's encoding. -/
theorem tableBytesDecode : Obligations.TableBytesDecode := by
  unfold Obligations.TableBytesDecode; decide

/-! ### The length (R91) -/

/-- Two tables with the same matches and the same lengths row by row. -/
theorem length_ite_congr {c : Prop} [Decidable c] {i j i' j' : Instr} (hi : i.length = i'.length) (hj : j.length = j'.length) :
    (if c then i else j).length = (if c then i' else j').length := by
  split
  · exact hi
  · exact hj

/-- The length of a base-table entry does not depend on the bytes after the opcode: they are in no row's match, and no row's length
looks at an operand. -/
theorem length_decodeBase (b n1 n2 : Byte) : (decodeBase b n1 n2).length = (decodeBase b 0 0).length := by
  have hld : (byOperand (midField b) (.ldRN · n1) (.ldHlN n1)).length = (byOperand (midField b) (.ldRN · 0) (.ldHlN 0)).length := by
    unfold byOperand
    cases r8OfCode (midField b) <;> rfl
  unfold decodeBase
  repeat' apply length_ite_congr
  any_goals rfl
  exact hld

/-- The first byte alone decides the length (R91). -/
theorem length_decodeBytes (b0 b1 b2 : Byte) :
    (decodeBytes b0 b1 b2).length = if b0 = Config.prefixCode then 2 else (decodeBase b0 0 0).length := by
  simp only [decodeBytes, apply_ite Instr.length, length_decodeExtended, length_decodeBase b0 b1 b2]

/-- Settles O4: the length as a function of the first byte, and the bounds of every instruction's length. -/
theorem firstByteDecidesLength : Obligations.FirstByteDecidesLength := by
  intro b0 b1 b2 c1 c2
  obtain ⟨-, h1, h3⟩ := encodedLength (decodeBytes b0 b1 b2)
  refine ⟨?_, h1, h3, ?_⟩
  · rw [length_decodeBytes, length_decodeBytes]
  · rintro rfl
    exact length_decodeBytes _ b1 b2

/-! ### The unassigned bytes (R103, R275) -/

/-- The eleven rows of the unassigned bytes, and they alone, raise a decode failure: of their one byte, in the base table. -/
theorem raises_decodeFailure {i : Instr} {b : Byte} {tab : OpTable} (h : i.raises = some (.decodeFailure b tab)) :
    b ∈ unassignedBytes ∧ encode i = [b] := by
  cases i with
  | illegalD3 | illegalDB | illegalDD | illegalE3 | illegalE4 | illegalEB | illegalEC | illegalED | illegalF4 | illegalFC
  | illegalFD => cases h; exact ⟨by decide, rfl⟩
  | _ => cases h

/-- An unassigned byte decodes to the row that raises its decode failure, whatever bytes follow. -/
theorem decodeBytes_unassigned {b : Byte} (hb : b ∈ unassignedBytes) (n1 n2 : Byte) :
    (decodeBytes b n1 n2).length = 1 ∧ (decodeBytes b n1 n2).raises = some (.decodeFailure b .base) := by
  simp only [unassignedBytes, List.mem_cons, List.not_mem_nil, or_false] at hb
  rcases hb with rfl | rfl | rfl | rfl | rfl | rfl | rfl | rfl | rfl | rfl | rfl <;> exact ⟨rfl, rfl⟩

/-- Settles O5: what an instruction does to `fatal` is what its row raises; a row that raises a decode failure is one of the eleven,
and is spelled by its byte alone. -/
theorem unassignedBytesAreDecodeFailures : Obligations.UnassignedBytesAreDecodeFailures := by
  intro b0 b1 b2 s
  obtain ⟨t, he, hnone, hsome⟩ := exec_answers (decodeBytes b0 b1 b2) s
  constructor
  · intro hb
    obtain ⟨hl, hr⟩ := decodeBytes_unassigned hb b1 b2
    exact ⟨hl, hsome _ hr ▸ he⟩
  · intro hb hs
    refine ⟨t, he, fun b tab ht => ?_⟩
    cases hr : (decodeBytes b0 b1 b2).raises with
    | none => rw [hnone hr, hs] at ht; cases ht
    | some f =>
      rw [hsome f hr] at ht
      cases ht
      obtain ⟨hmem, henc⟩ := raises_decodeFailure hr
      have hhead := head?_encode_decodeBytes b0 b1 b2
      rw [henc] at hhead
      cases hhead
      exact hb hmem

/-! ### The byte 0xCB (R90) -/

/-- The row of the bare byte 0xCB costs what the extended-table entry of the byte after it costs (R90, R102). -/
theorem cycleCost_prefixByte (s : State) : cycleCost .prefixByte s = cycleCost (decodeExtended (s.readBus (s.pc + 1))) s := by
  show extCycles (s.readBus (s.pc + 1)) = _
  unfold extCycles decodeExtended
  generalize extOpOf (s.readBus (s.pc + 1)) = op
  generalize r8OfCode (lowField (s.readBus (s.pc + 1))) = o
  cases op <;> cases o <;> rfl

/-- Settles O6: the two branches of the decoder, and the row of the bare byte 0xCB, which raises nothing. -/
theorem prefixSelectsExtendedTable : Obligations.PrefixSelectsExtendedTable := by
  intro s
  obtain ⟨t, he, hf, -⟩ := exec_answers .prefixByte s
  exact ⟨decodeBytes_ne_prefixByte _ _ _, fun h => if_pos h, fun h => if_neg h, exec_prefixByte s, cycleCost_prefixByte s,
    t, he, hf rfl⟩

end Sys2Proof

/-! PROOFS. The 8-bit loads (40_load8.md): each form is a register write or a store through the router, and the four forms that move
HL add a write of HL to it. -/

namespace Sys2Proof.Machine

/-! ### The forms that move HL (R135 to R138) -/

/-- Registers kept by two changes, one after the other. -/
theorem SameRegs.trans {l m : List R8} {s t u : State} (h : SameRegs l s t) (h' : SameRegs m t u) : SameRegs (l ++ m) s u := by
  intro r hr
  obtain ⟨hl, hm⟩ := not_or.mp (mt List.mem_append.mpr hr)
  exact (h' r hm).trans (h r hl)

/-- An HL write changes H and L alone (R11). -/
theorem sameRegs_setHl (s : State) (v : Word) : SameRegs [.h, .l] s (s.setHl v) := sameRegs_setPair s .hl v

/-- The one-byte instruction loaded A from the old HL, left HL at `v`, and did nothing else. -/
def LoadedAMovedHl (v : Word) (s t : State) : Prop :=
  t.regs.a = s.readBus s.hl ∧ t.hl = v ∧ SameRegs [.a, .h, .l] s t ∧ t.flags = s.flags ∧ t.pc = s.pc + 1 ∧ t.sp = s.sp ∧
    Untouched s t

/-- The one-byte instruction stored A at the old HL, left HL at `v`, and did nothing else. -/
def StoredAMovedHl (v : Word) (s t : State) : Prop :=
  t.hl = v ∧ SameRegs [.h, .l] s t ∧ t.flags = s.flags ∧ t.pc = s.pc + 1 ∧ t.sp = s.sp ∧ UntouchedBut [(s.hl, s.regs.a)] s t

/-- The write of HL leaves the loaded A alone. -/
theorem loadedAMovedHl_setHl (s : State) (v : Word) : LoadedAMovedHl v s (((s.setReg .a s.atHl).setHl v).advance 1) :=
  ⟨rfl, hl_setHl _ v, (sameRegs_setReg s .a s.atHl).trans (sameRegs_setHl _ v), rfl, rfl, rfl, untouched_of_eq rfl⟩

/-- The write of HL comes after the store, so the store's address and its frame are those of the old HL. -/
theorem storedAMovedHl_setHl (s : State) (v : Word) : StoredAMovedHl v s (((s.setAtHl s.regs.a).setHl v).advance 1) := by
  obtain ⟨hregs, hflags, hpc, hsp, hframe⟩ := wroteByte_writeBus s s.hl s.regs.a 1
  exact ⟨hl_setHl _ v, hregs.trans (sameRegs_setHl _ v), hflags, hpc, hsp, hframe.withCpu _ _ _ _⟩

/-- Settles O35: a load or a store at the old HL, and then the write of HL. -/
theorem hlIncrementAndDecrementForms : Obligations.HlIncrementAndDecrementForms := fun s =>
  ⟨⟨rfl, rfl, _, rfl, loadedAMovedHl_setHl s (s.hl - 1)⟩, ⟨rfl, rfl, _, rfl, loadedAMovedHl_setHl s (s.hl + 1)⟩,
    ⟨rfl, rfl, _, rfl, storedAMovedHl_setHl s (s.hl - 1)⟩, ⟨rfl, rfl, _, rfl, storedAMovedHl_setHl s (s.hl + 1)⟩⟩

/-! ### Stores and loads of one byte (R120 to R134) -/

/-- Settles O36: every form is one store through the router, at the address of its operand. -/
theorem byteStores : Obligations.ByteStores := by
  intro s src n lo hi
  have hnn : encode (.ldNnA (hi ++ lo)) = [0xEA, lo, hi] := congrArg (0xEA :: ·) (immBytes_append hi lo)
  rw [← highPage_eq s.regs.c, ← highPage_eq n]
  exact ⟨
    ⟨rfl, rfl, _, rfl, wroteByte_writeBus s s.hl (s.reg src) 1⟩,
    ⟨rfl, rfl, _, rfl, wroteByte_writeBus s s.hl n 2⟩,
    ⟨rfl, rfl, _, rfl, wroteByte_writeBus s s.bc s.regs.a 1⟩,
    ⟨rfl, rfl, _, rfl, wroteByte_writeBus s s.de s.regs.a 1⟩,
    ⟨hnn, rfl, _, rfl, wroteByte_writeBus s (hi ++ lo) s.regs.a 3⟩,
    ⟨rfl, rfl, _, rfl, wroteByte_writeBus s (highPage s.regs.c) s.regs.a 1⟩,
    ⟨rfl, rfl, _, rfl, wroteByte_writeBus s (highPage n) s.regs.a 2⟩⟩

/-- Settles O33: every form is one register write; the byte at HL is read in the state before it. -/
theorem registerLoads : Obligations.RegisterLoads := fun s dst src n =>
  ⟨⟨rfl, rfl, _, rfl, wroteReg_setReg s dst (s.reg src) 1⟩, ⟨rfl, rfl, _, rfl, wroteReg_setReg s dst n 2⟩,
    ⟨rfl, rfl, _, rfl, wroteReg_setReg s dst s.atHl 1⟩⟩

/-- Settles O34: every form writes A with the byte read at the address of its operand. -/
theorem accumulatorLoads : Obligations.AccumulatorLoads := by
  intro s n lo hi
  have hnn : encode (.ldANn (hi ++ lo)) = [0xFA, lo, hi] := congrArg (0xFA :: ·) (immBytes_append hi lo)
  rw [← highPage_eq s.regs.c, ← highPage_eq n]
  exact ⟨
    ⟨rfl, rfl, _, rfl, wroteReg_setReg s .a (s.readBus s.bc) 1⟩,
    ⟨rfl, rfl, _, rfl, wroteReg_setReg s .a (s.readBus s.de) 1⟩,
    ⟨hnn, rfl, _, rfl, wroteReg_setReg s .a (s.readBus (hi ++ lo)) 3⟩,
    ⟨rfl, rfl, _, rfl, wroteReg_setReg s .a (s.readBus (highPage s.regs.c)) 1⟩,
    ⟨rfl, rfl, _, rfl, wroteReg_setReg s .a (s.readBus (highPage n)) 2⟩⟩

end Sys2Proof.Machine

/-! PROOFS. The 16-bit loads (41_load16_stack.md) and the signed displacement from SP (43_alu16.md R213): pair and SP writes, the stack's
push and pop. -/

namespace Sys2Proof.Machine

/-! ### Pair and SP loads (R150 to R152) -/

/-- An instruction that writes one pair. -/
theorem untouched_setPair (s : State) (p : Pair) (v n : Word) : Untouched s ((s.setPair p v).advance n) := by
  cases p <;> exact untouched_of_eq rfl

/-- Settles O37: a pair write, one 16-bit store through the router, and an SP write. -/
theorem pairAndStackPointerLoads : Obligations.PairAndStackPointerLoads := by
  intro s p lo hi
  have himm : immBytes (hi ++ lo) = [lo, hi] := immBytes_append hi lo
  refine ⟨⟨congrArg (_ :: ·) himm, rfl, _, rfl, ?_⟩, ⟨congrArg (0x08 :: ·) himm, rfl, _, rfl, ?_⟩,
    ⟨rfl, rfl, _, rfl, rfl, fun _ _ => rfl, rfl, rfl, untouched_of_eq rfl⟩⟩
  · exact ⟨pair_setPair s p _, sameRegs_setPair s p _, setPair_sp_of_ne s p _, setPair_flags s p _,
      congrArg (· + 3) (setPair_pc s p _), untouched_setPair s p _ 3⟩
  · exact ⟨fun r _ => congrArg (Regs.get · r) (writeBus16_regs s _ _), writeBus16_flags s _ _,
      congrArg (· + 3) (writeBus16_pc s _ _), writeBus16_sp s _ _, (untouchedBut_writeBus16 s _ _).withCpu _ _ _ _⟩

/-! ### The signed displacement from SP (R153, R213) -/

/-- `addSp16` as an integer sum, with the carries of the unsigned low bytes (R153, R213). -/
theorem addSp16_eq (sp : Word) (e : Byte) : addSp16 sp e = (BitVec.ofInt 16 (sp.toNat + e.toInt),
    ⟨false, false, decide (sp.toNat % 16 + e.toNat % 16 > 0xF), decide (sp.toNat % 256 + e.toNat > 0xFF)⟩) := by
  rw [addSp16, add_sext16]; rfl

/-- Settles O38: both forms write the result and the flags of `addSp16`, one to HL and one to SP. -/
theorem signedDisplacementFromSp : Obligations.SignedDisplacementFromSp := by
  intro s e
  have hsum := congrArg Prod.fst (addSp16_eq s.sp e)
  have hflags := congrArg Prod.snd (addSp16_eq s.sp e)
  exact ⟨
    ⟨rfl, rfl, _, rfl, (hl_setHl s _).trans hsum, sameRegs_setHl s _, hflags, rfl, rfl, untouched_of_eq rfl⟩,
    ⟨rfl, rfl, _, rfl, hsum, fun _ _ => rfl, hflags, rfl, untouched_of_eq rfl⟩⟩

/-! ### PUSH and POP (R154, R155) -/

/-- Every stack pair but AF reads back what was written to it: AF alone has bits without storage (R13, R14, R99). -/
theorem stackPair_setStackPair_of_ne (s : State) (q : StackPair) (v : Word) (h : q ≠ .af) :
    (s.setStackPair q v).stackPair q = v := by
  cases q with
  | af => exact absurd rfl h
  | bc => exact bc_setBc s v
  | de => exact de_setDe s v
  | hl => exact hl_setHl s v

/-- An instruction that moves SP past the top of the stack and writes one stack pair. -/
theorem untouched_pop (s : State) (q : StackPair) (v n : Word) : Untouched s ((s.popSp.setStackPair q v).advance n) := by
  cases q <;> exact untouched_of_eq rfl

/-- Settles O39: PUSH is the push of the pair's value; POP is a write of the popped value to the pair, whose halves are the two bytes
read from the stack. -/
theorem pushAndPop : Obligations.PushAndPop := by
  intro s q
  refine ⟨⟨rfl, rfl, _, rfl, ?_⟩, ⟨rfl, rfl, _, rfl, ?_⟩⟩
  · obtain ⟨-, hsp, hregs, hflags, hframe⟩ := pushedAndWentTo_push16 s (s.stackPair q) (s.pc + 1)
    exact ⟨congrArg (· + 1) (push16_pc s _), hsp, hregs, hflags, hframe.withCpu _ _ _ _⟩
  · refine ⟨congrArg (· + 1) (setStackPair_pc s.popSp q _), setStackPair_sp s.popSp q _, sameRegs_setStackPair s.popSp q _,
      fun hq => ⟨setStackPair_flags_of_ne s.popSp q _ hq, stackPair_setStackPair_of_ne s.popSp q _ hq⟩, ?_,
      untouched_pop s q _ 1⟩
    rintro rfl
    exact ⟨hiByte_pack _ _, congrArg Flags.fromByte (loByte_pack _ _)⟩

end Sys2Proof.Machine

/-! PROOFS. 8-bit arithmetic and logic (42_alu8.md): each form writes A, a register, the byte at HL or the flags alone with the value of
one result function, and the laws of the result functions give the value; the decimal law of 95_test_vectors.md section 2.4. -/

namespace Sys2Proof.Machine

/-! ### Addition and subtraction (R165 to R177, R187 to R189) -/

/-- Without a carry in, `add8` is the sum of the bytes. -/
theorem add8_false (a v : Byte) : add8 a v false = (a + v, addFlags a v false) := by
  rw [add8_eq]; simp

/-- Without a borrow in, `sub8` is the difference of the bytes. -/
theorem sub8_false (a v : Byte) : sub8 a v false = (a - v, subFlags a v false) := by
  rw [sub8_eq]; simp

section operand
variable (s : State) (v : Byte) (n : Word)

/-- ADD of an operand to A (R166 to R168). -/
theorem wroteSum_putReg :
    WroteRegFlags .a (s.regs.a + v) (addFlags s.regs.a v false) n s ((s.putReg .a (add8 s.regs.a v false)).advance n) := by
  rw [add8_false]; exact wroteRegFlags_putReg s .a (_, _) n

/-- ADC of an operand to A (R169 to R171). -/
theorem wroteSumWithCarry_putReg (c : Bool) :
    WroteRegFlags .a (s.regs.a + v + (BitVec.ofBool c).setWidth 8) (addFlags s.regs.a v c) n s
      ((s.putReg .a (add8 s.regs.a v c)).advance n) := by
  rw [add8_eq]; exact wroteRegFlags_putReg s .a (_, _) n

/-- SUB of an operand from A (R172 to R174). -/
theorem wroteDifference_putReg :
    WroteRegFlags .a (s.regs.a - v) (subFlags s.regs.a v false) n s ((s.putReg .a (sub8 s.regs.a v false)).advance n) := by
  rw [sub8_false]; exact wroteRegFlags_putReg s .a (_, _) n

/-- SBC of an operand from A (R175 to R177). -/
theorem wroteDifferenceWithCarry_putReg (c : Bool) :
    WroteRegFlags .a (s.regs.a - v - (BitVec.ofBool c).setWidth 8) (subFlags s.regs.a v c) n s
      ((s.putReg .a (sub8 s.regs.a v c)).advance n) := by
  rw [sub8_eq]; exact wroteRegFlags_putReg s .a (_, _) n

/-- CP of an operand with A (R187 to R189). -/
theorem wroteFlags_compare :
    WroteFlags (subFlags s.regs.a v false) n s ((s.setFlags (sub8 s.regs.a v false).2).advance n) := by
  rw [sub8_false]; exact wroteFlags_setFlags s _ n

end operand

/-- Settles O40: every form writes A and the flags with `add8` of A and its operand. -/
theorem addAndAddWithCarry : Obligations.AddAndAddWithCarry := fun s r n => ⟨
  ⟨rfl, rfl, _, rfl, wroteSum_putReg s (s.reg r) 1⟩,
  ⟨rfl, rfl, _, rfl, wroteSum_putReg s s.atHl 1⟩,
  ⟨rfl, rfl, _, rfl, wroteSum_putReg s n 2⟩,
  ⟨rfl, rfl, _, rfl, wroteSumWithCarry_putReg s (s.reg r) 1 s.flags.c⟩,
  ⟨rfl, rfl, _, rfl, wroteSumWithCarry_putReg s s.atHl 1 s.flags.c⟩,
  ⟨rfl, rfl, _, rfl, wroteSumWithCarry_putReg s n 2 s.flags.c⟩⟩

/-- Settles O41: every form writes A and the flags with `sub8` of A and its operand. -/
theorem subtractAndSubtractWithCarry : Obligations.SubtractAndSubtractWithCarry := fun s r n => ⟨
  ⟨rfl, rfl, _, rfl, wroteDifference_putReg s (s.reg r) 1⟩,
  ⟨rfl, rfl, _, rfl, wroteDifference_putReg s s.atHl 1⟩,
  ⟨rfl, rfl, _, rfl, wroteDifference_putReg s n 2⟩,
  ⟨rfl, rfl, _, rfl, wroteDifferenceWithCarry_putReg s (s.reg r) 1 s.flags.c⟩,
  ⟨rfl, rfl, _, rfl, wroteDifferenceWithCarry_putReg s s.atHl 1 s.flags.c⟩,
  ⟨rfl, rfl, _, rfl, wroteDifferenceWithCarry_putReg s n 2 s.flags.c⟩⟩

/-- Settles O43: every form writes the flags of `sub8` of A and its operand. -/
theorem compareWritesFlagsOnly : Obligations.CompareWritesFlagsOnly := fun s r n => ⟨
  ⟨rfl, rfl, _, rfl, wroteFlags_compare s (s.reg r) 1⟩,
  ⟨rfl, rfl, _, rfl, wroteFlags_compare s s.atHl 1⟩,
  ⟨rfl, rfl, _, rfl, wroteFlags_compare s n 2⟩⟩

/-! ### Logic (R178 to R186) -/

/-- Settles O42: every form writes A and the flags with `and8`, `xor8` or `or8` of A and its operand. -/
theorem andXorOr : Obligations.AndXorOr := fun s r n => ⟨
  ⟨rfl, rfl, _, rfl, wroteRegFlags_putReg s .a (and8 s.regs.a (s.reg r)) 1⟩,
  ⟨rfl, rfl, _, rfl, wroteRegFlags_putReg s .a (and8 s.regs.a s.atHl) 1⟩,
  ⟨rfl, rfl, _, rfl, wroteRegFlags_putReg s .a (and8 s.regs.a n) 2⟩,
  ⟨rfl, rfl, _, rfl, wroteRegFlags_putReg s .a (xor8 s.regs.a (s.reg r)) 1⟩,
  ⟨rfl, rfl, _, rfl, wroteRegFlags_putReg s .a (xor8 s.regs.a s.atHl) 1⟩,
  ⟨rfl, rfl, _, rfl, wroteRegFlags_putReg s .a (xor8 s.regs.a n) 2⟩,
  ⟨rfl, rfl, _, rfl, wroteRegFlags_putReg s .a (or8 s.regs.a (s.reg r)) 1⟩,
  ⟨rfl, rfl, _, rfl, wroteRegFlags_putReg s .a (or8 s.regs.a s.atHl) 1⟩,
  ⟨rfl, rfl, _, rfl, wroteRegFlags_putReg s .a (or8 s.regs.a n) 2⟩⟩

/-! ### INC and DEC (R190 to R193) -/

/-- Settles O44: a register form and a form at HL for each of `inc8` and `dec8`. -/
theorem incrementAndDecrement : Obligations.IncrementAndDecrement := by
  intro s r
  refine ⟨⟨rfl, rfl, _, rfl, ?_⟩, ⟨rfl, rfl, _, rfl, ?_⟩, ⟨rfl, rfl, _, rfl, ?_⟩, ⟨rfl, rfl, _, rfl, ?_⟩⟩
  · rw [inc8_eq]; exact wroteRegFlags_putReg s r (_, _) 1
  · rw [inc8_eq]; exact wroteByte_putAtHl s (_, _) 1
  · rw [dec8_eq]; exact wroteRegFlags_putReg s r (_, _) 1
  · rw [dec8_eq]; exact wroteByte_putAtHl s (_, _) 1

/-! ### DAA, CPL, SCF and CCF (R194 to R197) -/

/-- The upper test of DAA: the carry flag, and after an addition also a value above 0x99 (R194). -/
def daaUpper (a : Byte) (f : Flags) : Bool := f.c || (!f.n && decide (a.toNat > 0x99))

/-- The lower test of DAA: the half carry, and after an addition also a low nibble above 9 (R194). -/
def daaLower (a : Byte) (f : Flags) : Bool := f.h || (!f.n && decide (a.toNat % 16 > 9))

/-- What DAA adds or subtracts, given its two tests (R194). -/
def daaCorrection (upper lower : Bool) : Byte := (if upper then 0x60 else 0) + (if lower then 0x06 else 0)

/-- The value DAA leaves in A (R194). -/
def daaResult (a : Byte) (f : Flags) : Byte :=
  if f.n then a - daaCorrection (daaUpper a f) (daaLower a f) else a + daaCorrection (daaUpper a f) (daaLower a f)

/-- The 0x60 step leaves the low nibble as it is, so the lower test may look at A before or after it (R194). -/
theorem nib_add_0x60 (a : Byte) : nib (a + 0x60) = nib a := by
  rw [nib, nib, BitVec.toNat_add, show (0x60 : Byte).toNat = 96 from rfl]; omega

/-- `daa8` is one correction by the sum of the two steps (R194). -/
theorem daa8_eq (a : Byte) (f : Flags) :
    daa8 a f = (daaResult a f, ⟨daaResult a f == 0, f.n, false, daaUpper a f⟩) := by
  obtain ⟨z, n, h, c⟩ := f
  cases n with
  | true =>
    have hres : daaResult a ⟨z, true, h, c⟩ = (daa8 a ⟨z, true, h, c⟩).1 := by
      cases c <;> cases h <;> simp [daaResult, daaUpper, daaLower, daaCorrection, daa8, BitVec.sub_sub]
    rw [hres]; simp [daa8, daaUpper]
  | false =>
    have hlow : ∀ u : Bool, nib (if u then a + 0x60 else a) = a.toNat % 16 := fun u => by
      cases u
      · rfl
      · exact nib_add_0x60 a
    have hres : daaResult a ⟨z, false, h, c⟩ = (daa8 a ⟨z, false, h, c⟩).1 := by
      simp only [daaResult, daaUpper, daaLower, daaCorrection, daa8, hlow, Bool.not_false, Bool.true_and]
      cases c || decide (a.toNat > 0x99) <;> cases h || decide (a.toNat % 16 > 9) <;> simp [BitVec.add_assoc]
    rw [hres]; simp [daa8, daaUpper]

/-- Settles O45: DAA writes A and the flags with `daa8`; the rest is one write of A or of the flags. -/
theorem daaAndFlagInstructions : Obligations.DaaAndFlagInstructions := by
  intro s
  refine ⟨⟨rfl, rfl, _, rfl, ?_⟩, ⟨rfl, rfl, _, rfl, wroteRegFlags_putReg s .a (_, _) 1⟩,
    ⟨rfl, rfl, _, rfl, wroteFlags_setFlags s _ 1⟩, ⟨rfl, rfl, _, rfl, wroteFlags_setFlags s _ 1⟩⟩
  rw [daa8_eq]
  exact wroteRegFlags_putReg s .a (_, _) 1

/-! ### Decimal arithmetic (95_test_vectors.md section 2.4) -/

/-- DAA's correction as a number. -/
theorem toNat_daaCorrection (upper lower : Bool) :
    (daaCorrection upper lower).toNat = (if upper then 96 else 0) + (if lower then 6 else 0) := by
  cases upper <;> cases lower <;> rfl

/-- DAA after ADD: its tests on the sum and its flags are tests on the operands, whatever the operands are. -/
theorem daa8_add8 (a v : Byte) : let k := daaCorrection (decide (a.toNat + v.toNat > 0x99)) (decide (nib a + nib v > 9))
    (daa8 (add8 a v false).1 (add8 a v false).2).1 = a + v + k ∧
    (daa8 (add8 a v false).1 (add8 a v false).2).2.c = decide (a.toNat + v.toNat > 0x99) := by
  have ha := a.isLt
  have hv := v.isLt
  have hsum : (add8 a v false).1.toNat = (a.toNat + v.toNat) % 256 := BitVec.toNat_ofNat _ _
  have hupper : daaUpper (add8 a v false).1 (add8 a v false).2 = decide (a.toNat + v.toNat > 0x99) := by
    rw [daaUpper, hsum, Bool.eq_iff_iff]
    simp only [add8, Bool.toNat_false, Bool.not_false, Bool.true_and, Bool.or_eq_true, decide_eq_true_eq]; omega
  have hlower : daaLower (add8 a v false).1 (add8 a v false).2 = decide (nib a + nib v > 9) := by
    rw [daaLower, hsum, Bool.eq_iff_iff]
    simp only [add8, Bool.toNat_false, Bool.not_false, Bool.true_and, Bool.or_eq_true, decide_eq_true_eq]; unfold nib; omega
  rw [daa8_eq, daaResult, hupper, hlower, add8_false]
  exact ⟨rfl, rfl⟩

/-- DAA after SUB: its tests are the borrows of the operands. -/
theorem daa8_sub8 (a v : Byte) : let k := daaCorrection (decide (a.toNat < v.toNat)) (decide (nib a < nib v))
    (daa8 (sub8 a v false).1 (sub8 a v false).2).1 = a - v - k ∧
    (daa8 (sub8 a v false).1 (sub8 a v false).2).2.c = decide (a.toNat < v.toNat) := by
  have hupper : daaUpper (sub8 a v false).1 (sub8 a v false).2 = decide (a.toNat < v.toNat) := Bool.or_false _
  have hlower : daaLower (sub8 a v false).1 (sub8 a v false).2 = decide (nib a < nib v) := Bool.or_false _
  rw [daa8_eq, daaResult, hupper, hlower, sub8_false]
  exact ⟨rfl, rfl⟩

section bcd
variable {x y : Nat} (hx : x < 100) (hy : y < 100)

include hx in
/-- The upper nibble of the packed-BCD byte of a number below 100 is its tens digit, the lower nibble its ones digit. -/
theorem toNat_bcd : (bcd x).toNat = 16 * (x / 10) + x % 10 := by
  rw [bcd, BitVec.toNat_ofNat]; omega

include hx in
/-- The low nibble of a packed-BCD byte is the ones digit. -/
theorem nib_bcd : nib (bcd x) = x % 10 := by
  rw [nib, toNat_bcd hx]; omega

include hx hy

/-- A sum of packed-BCD bytes is above 0x99 exactly when the decimal sum is above 99. -/
theorem toNat_bcd_add_gt_iff : (bcd x).toNat + (bcd y).toNat > 0x99 ↔ x + y > 99 := by
  rw [toNat_bcd hx, toNat_bcd hy]
  rcases Nat.lt_or_ge (x / 10 + y / 10) 10 with h | h <;> omega

/-- Packed-BCD bytes are ordered as their numbers. -/
theorem toNat_bcd_lt_iff : (bcd x).toNat < (bcd y).toNat ↔ x < y := by
  rw [toNat_bcd hx, toNat_bcd hy]
  omega

/-- The correction makes the sum of packed-BCD bytes the packed-BCD byte of the decimal sum. -/
theorem bcd_add_bcd : bcd x + bcd y + daaCorrection (decide (x + y > 99)) (decide (x % 10 + y % 10 > 9)) = bcd ((x + y) % 100) := by
  apply BitVec.eq_of_toNat_eq
  rw [BitVec.toNat_add, BitVec.toNat_add, toNat_bcd hx, toNat_bcd hy, toNat_bcd (Nat.mod_lt _ (by decide)), toNat_daaCorrection]
  simp only [decide_eq_true_eq]
  split <;> split <;> omega

/-- The correction makes the difference of packed-BCD bytes the packed-BCD byte of the decimal difference. -/
theorem bcd_sub_bcd : bcd x - bcd y - daaCorrection (decide (x < y)) (decide (x % 10 < y % 10)) = bcd ((x + 100 - y) % 100) := by
  apply BitVec.eq_of_toNat_eq
  rw [BitVec.toNat_sub, BitVec.toNat_sub, toNat_bcd hx, toNat_bcd hy, toNat_bcd (Nat.mod_lt _ (by decide)), toNat_daaCorrection]
  simp only [decide_eq_true_eq]
  split <;> split <;> omega

end bcd

/-- Settles O46: DAA's correction of the binary sum or difference, on packed-BCD operands. -/
theorem daaMakesBcdArithmetic : Obligations.DaaMakesBcdArithmetic := by
  intro x y s hx hy ha hb
  obtain ⟨hsum, hcarry⟩ := daa8_add8 s.regs.a s.regs.b
  obtain ⟨hdiff, hborrow⟩ := daa8_sub8 s.regs.a s.regs.b
  refine ⟨⟨_, _, rfl, rfl, hsum.trans ?_, hcarry.trans ?_⟩, ⟨_, _, rfl, rfl, hdiff.trans ?_, hborrow.trans ?_⟩⟩
  · simp only [ha, hb, toNat_bcd_add_gt_iff hx hy, nib_bcd hx, nib_bcd hy, bcd_add_bcd hx hy]
  · simp only [ha, hb, toNat_bcd_add_gt_iff hx hy]
  · simp only [ha, hb, toNat_bcd_lt_iff hx hy, nib_bcd hx, nib_bcd hy, bcd_sub_bcd hx hy]
  · simp only [ha, hb, toNat_bcd_lt_iff hx hy]

end Sys2Proof.Machine

/-! PROOFS. 16-bit arithmetic (43_alu16.md R210 to R212): ADD HL,rr writes HL and the flags with the value of `addHl16`, INC rr and DEC rr
are one write of the pair. -/

namespace Sys2Proof.Machine

/-- The one-byte instruction wrote HL with `v` and the flags with `f`, and nothing else. -/
def WroteHlFlags (v : Word) (f : Flags) (s t : State) : Prop :=
  t.hl = v ∧ SameRegs [.h, .l] s t ∧ t.flags = f ∧ t.pc = s.pc + 1 ∧ t.sp = s.sp ∧ Untouched s t

/-- The one-byte instruction wrote the pair `p` with `v` and nothing else. -/
def WrotePair (p : Pair) (v : Word) (s t : State) : Prop :=
  t.pair p = v ∧ SameRegs p.regs s t ∧ (p ≠ .sp → t.sp = s.sp) ∧ t.flags = s.flags ∧ t.pc = s.pc + 1 ∧ Untouched s t

/-- A write of HL and the flags leaves SP and the other registers alone. -/
theorem wroteHlFlags_setHl (s : State) (v : Word) (f : Flags) :
    WroteHlFlags v f s (((s.setHl v).setFlags f).advance 1) :=
  ⟨hl_setHl s v, sameRegs_setHl s v, rfl, rfl, rfl, untouched_of_eq rfl⟩

/-- A write of a pair changes no flag, and SP only where SP is the pair. -/
theorem wrotePair_setPair (s : State) (p : Pair) (v : Word) : WrotePair p v s ((s.setPair p v).advance 1) :=
  ⟨pair_setPair s p v, sameRegs_setPair s p v, setPair_sp_of_ne s p v, setPair_flags s p v,
    congrArg (· + 1) (setPair_pc s p v), untouched_setPair s p v 1⟩

/-- Settles O47: ADD HL writes HL and the flags with `addHl16` of HL and the pair; INC and DEC write the pair alone. -/
theorem pairArithmetic : Obligations.PairArithmetic := by
  refine fun s p => ⟨⟨rfl, rfl, _, rfl, ?_⟩, ⟨rfl, rfl, _, rfl, wrotePair_setPair s p (s.pair p + 1)⟩,
    ⟨rfl, rfl, _, rfl, wrotePair_setPair s p (s.pair p - 1)⟩⟩
  rw [addHl16_eq]
  exact wroteHlFlags_setHl s (s.hl + s.pair p) _

end Sys2Proof.Machine

/-! PROOFS. Control transfer (44_control.md R220 to R230): every form is a jump, a push and a jump, or a pop of PC; an untaken form only
advances PC. -/

namespace Sys2Proof.Machine

/-! ### Jumps (R220 to R224) -/

/-- A conditional jump goes to its target or to the next instruction, and does nothing else either way. -/
theorem wentTo_jump_or_advance (s : State) (c : Bool) (a n : Word) :
    WentTo (if c then a else s.pc + n) s (if c then s.jump a else s.advance n) := by
  cases c with
  | true => exact wentTo_jump s a
  | false => exact wentTo_advance s n

/-- Settles O48: every form is a jump, or for a condition a jump or an advance; JR's target is the signed sum. -/
theorem jumps : Obligations.Jumps := by
  intro s cc e lo hi
  have himm : immBytes (hi ++ lo) = [lo, hi] := immBytes_append hi lo
  rw [← jrTarget_eq, ← cond_eq_taken]
  exact ⟨
    ⟨congrArg (0xC3 :: ·) himm, rfl, _, rfl, wentTo_jump s (hi ++ lo)⟩,
    ⟨congrArg (_ :: ·) himm, rfl, _, rfl, wentTo_jump_or_advance s (s.flags.cond cc) (hi ++ lo) 3⟩,
    ⟨rfl, rfl, _, rfl, wentTo_jump s s.hl⟩,
    ⟨rfl, rfl, _, rfl, wentTo_jump s (s.jrTarget e)⟩,
    ⟨rfl, rfl, _, rfl, wentTo_jump_or_advance s (s.flags.cond cc) (s.jrTarget e) 2⟩⟩

/-! ### Calls and restarts (R225, R226, R230) -/

/-- Settles O49: a taken form is the push of the return address and a jump; an untaken CALL only advances PC. -/
theorem callsPushReturnAddress : Obligations.CallsPushReturnAddress := by
  intro s cc t3 lo hi
  have himm : immBytes (hi ++ lo) = [lo, hi] := immBytes_append hi lo
  rw [← rstTarget_eq, ← cond_eq_taken]
  refine ⟨⟨congrArg (0xCD :: ·) himm, rfl, _, rfl, pushedAndWentTo_push16 s (s.pc + 3) (hi ++ lo)⟩, fun h => ?_, fun h => ?_,
    ⟨rfl, rfl, _, rfl, pushedAndWentTo_push16 s (s.pc + 1) (rstTarget t3)⟩⟩
  · exact ⟨congrArg (_ :: ·) himm, if_pos h, _, congrArg Host.Outcome.next (if_pos h),
      pushedAndWentTo_push16 s (s.pc + 3) (hi ++ lo)⟩
  · have hc := Bool.eq_false_iff.mp h
    exact ⟨congrArg (_ :: ·) himm, if_neg hc, _, congrArg Host.Outcome.next (if_neg hc), wentTo_advance s 3⟩

/-! ### Returns (R227 to R229, R353) -/

/-- From `s` to `t` PC was popped from the stack, and no register or flag changed. -/
def PoppedPc (s t : State) : Prop :=
  t.pc = s.readBus (s.sp + 1) ++ s.readBus s.sp ∧ t.sp = s.sp + 2 ∧ SameRegs [] s t ∧ t.flags = s.flags

/-- A return pops PC. -/
theorem poppedPc_jump_popValue (s : State) : PoppedPc s (s.popSp.jump s.popValue) := ⟨rfl, rfl, fun _ _ => rfl, rfl⟩

/-- A return reads the stack and writes none of it. -/
theorem untouched_jump_popValue (s : State) : Untouched s (s.popSp.jump s.popValue) := untouched_of_eq rfl

/-- Settles O50: a taken form pops PC; an untaken RET cc only advances it. -/
theorem returnsPopPc : Obligations.ReturnsPopPc := by
  intro s cc
  rw [← cond_eq_taken]
  refine ⟨⟨rfl, rfl, _, rfl, poppedPc_jump_popValue s, untouched_jump_popValue s⟩, fun h => ?_, fun h => ?_⟩
  · exact ⟨rfl, if_pos h, _, congrArg Host.Outcome.next (if_pos h), poppedPc_jump_popValue s, untouched_jump_popValue s⟩
  · have hc := Bool.eq_false_iff.mp h
    exact ⟨rfl, if_neg hc, _, congrArg Host.Outcome.next (if_neg hc), wentTo_advance s 1⟩

/-- The value a dispatch leaves on a stack of plain storage is the PC it interrupted (R350). -/
theorem popValue_dispatch (k : IrqSource) (s : State) (h1 : isPlain (s.sp - 1) = true) (h2 : isPlain (s.sp - 2) = true) :
    (s.dispatch k).popValue = s.pc :=
  popValue_push16 { s with ifReg := s.ifReg &&& ~~~(oneBit k.bit), ime := false, imePending := false } s.pc h1 h2

/-- Settles O16: RETI is a return that also sets IME; after a dispatch it pops the PC that the dispatch pushed, and SP's two moves cancel. -/
theorem retiUndoesDispatch : Obligations.RetiUndoesDispatch := by
  refine fun k s => ⟨⟨rfl, rfl, _, rfl, ?_⟩, fun h1 h2 => ⟨_, rfl, ?_⟩⟩
  · obtain ⟨hpc, hsp, hregs, hflags⟩ := poppedPc_jump_popValue s
    exact ⟨hpc, hsp, hregs, hflags, rfl, untouched_of_eq rfl⟩
  · have hsp : (s.dispatch k).sp + 2 = s.sp := by rw [dispatch_sp, BitVec.sub_add_cancel]
    exact ⟨popValue_dispatch k s h1 h2, hsp, dispatch_regs k s, dispatch_flags k s, rfl⟩

end Sys2Proof.Machine

/-! PROOFS. Rotates, shifts and the bit operations (45_rotate_bit.md R239 to R265): each form writes a register, the byte at HL or the flags
alone with the value of one function on bytes; the laws of the eight functions of R239 give the value. -/

namespace Sys2Proof.Machine

/-! ### The eight functions of R239 as whole-byte rotates and shifts -/

/-- A left move of `v` by one with `b` entering at bit 0, told by its bits. -/
theorem low7_append_eq {v w : Byte} {b : Bool} (hlow : w.getLsbD 0 = b)
    (hmove : ∀ j, j + 1 < 8 → w.getLsbD (j + 1) = v.getLsbD j) : v.extractLsb' 0 7 ++ BitVec.ofBool b = w := by
  refine BitVec.eq_of_getLsbD_eq fun j hj => ?_
  rw [BitVec.getLsbD_append]
  cases j with
  | zero => simpa using hlow.symm
  | succ j => simpa [show j < 7 by omega] using (hmove j hj).symm

/-- A right move of `v` by one with `b` entering at bit 7, told by its bits. -/
theorem append_high7_eq {v w : Byte} {b : Bool} (hhigh : w.getLsbD 7 = b)
    (hmove : ∀ j, j < 7 → w.getLsbD j = v.getLsbD (1 + j)) : BitVec.ofBool b ++ v.extractLsb' 1 7 = w := by
  refine BitVec.eq_of_getLsbD_eq fun j hj => ?_
  rw [BitVec.getLsbD_append]
  rcases Nat.lt_succ_iff_lt_or_eq.mp hj with h | rfl
  · simpa [h] using (hmove j h).symm
  · simpa using hhigh.symm

section functions
variable (v : Byte) (c : Bool)

/-- RLC: bit 7 enters at bit 0. -/
theorem rlcFn_eq : rlcFn v c = shifted .rlc v c :=
  Prod.ext (low7_append_eq (by simp [shifted]) fun j hj => by simp [shifted, hj, Nat.lt_of_succ_lt hj]) rfl

/-- RRC: bit 0 enters at bit 7. -/
theorem rrcFn_eq : rrcFn v c = shifted .rrc v c :=
  Prod.ext (append_high7_eq (by simp [shifted]) fun j hj => by simp [shifted, hj]) rfl

/-- RL: the carry enters at bit 0. -/
theorem rlFn_eq : rlFn v c = shifted .rl v c :=
  Prod.ext (low7_append_eq (by simp [shifted]) fun j hj => by simp [shifted, hj, Nat.lt_of_succ_lt hj]) rfl

/-- RR: the carry enters at bit 7. -/
theorem rrFn_eq : rrFn v c = shifted .rr v c :=
  Prod.ext (append_high7_eq (by simp [shifted]) fun j hj => by simp [shifted, hj]) rfl

/-- SLA: 0 enters at bit 0. -/
theorem slaFn_eq : slaFn v c = shifted .sla v c :=
  Prod.ext (low7_append_eq (b := false) (by simp [shifted]) fun j hj => by simp [shifted, hj, Nat.lt_of_succ_lt hj]) rfl

/-- SRA: the sign bit, which is bit 7, stays. -/
theorem sraFn_eq : sraFn v c = shifted .sra v c := by
  have hbits (j : Nat) (hj : j < 8) : (v.sshiftRight 1).getLsbD j = if 1 + j < 8 then v.getLsbD (1 + j) else v.getLsbD 7 := by
    rw [BitVec.getLsbD_sshiftRight, decide_eq_false (Nat.not_le.mpr hj), BitVec.msb_eq_getLsbD_last]; rfl
  exact Prod.ext (append_high7_eq (hbits 7 (by decide)) fun j hj => (hbits j (by omega)).trans (if_pos (by omega))) rfl

/-- SRL: 0 enters at bit 7. -/
theorem srlFn_eq : srlFn v c = shifted .srl v c :=
  Prod.ext (append_high7_eq (b := false) (by simp [shifted]) fun j hj => by simp [shifted]) rfl

/-- SWAP is a rotate by four: each nibble takes the other's place. -/
theorem swapFn_eq : swapFn v c = shifted .swap v c := by
  refine Prod.ext (BitVec.eq_of_getLsbD_eq fun j hj => ?_) rfl
  calc (v.extractLsb' 0 4 ++ v.extractLsb' 4 4 : Byte).getLsbD j
      = if j < 4 then v.getLsbD (4 + j) else v.getLsbD (j - 4) := by
        rw [BitVec.getLsbD_append]; simp +contextual [show j - 4 < 4 by omega]
    _ = (v.rotateLeft 4).getLsbD j := by
        rw [BitVec.getLsbD_rotateLeft]; simp [hj]

end functions

/-! ### The forms on a register, on the byte at HL and on A (R240 to R259) -/

section forms
variable (s : State) {op : ExtOp} {fn : Byte → Bool → Byte × Bool} (hfn : ∀ v c, fn v c = shifted op v c)
include hfn

/-- A register form of a function of R239. -/
theorem wroteShifted_putReg (r : R8) :
    WroteRegFlags r (shifted op (s.reg r) s.flags.c).1 (shiftedFlags op (s.reg r) s.flags.c) 2 s
      ((s.putReg r (shiftFlags (fn (s.reg r) s.flags.c))).advance 2) := by
  rw [hfn]; exact wroteRegFlags_putReg s r (shiftFlags _) 2

/-- A form at HL of a function of R239: the flags come from the result, before the address takes it. -/
theorem wroteShifted_putAtHl :
    WroteByte s.hl (shifted op s.atHl s.flags.c).1 (shiftedFlags op s.atHl s.flags.c) 2 s
      ((s.putAtHl (shiftFlags (fn s.atHl s.flags.c))).advance 2) := by
  rw [hfn]; exact wroteByte_putAtHl s (shiftFlags _) 2

/-- An accumulator form of a function of R239: Z is clear whatever the result. -/
theorem wroteRotatedA_putReg :
    WroteRegFlags .a (shifted op s.regs.a s.flags.c).1 ⟨false, false, false, (shifted op s.regs.a s.flags.c).2⟩ 1 s
      ((s.putReg .a (rotateAFlags (fn s.regs.a s.flags.c))).advance 1) := by
  rw [hfn]; exact wroteRegFlags_putReg s .a (rotateAFlags _) 1

end forms

/-- Settles O52: every form writes its register and the flags with a function of R239. -/
theorem shiftsOfRegisters : Obligations.ShiftsOfRegisters := fun s r => ⟨
  ⟨rfl, rfl, _, rfl, wroteShifted_putReg s rlcFn_eq r⟩,
  ⟨rfl, rfl, _, rfl, wroteShifted_putReg s rrcFn_eq r⟩,
  ⟨rfl, rfl, _, rfl, wroteShifted_putReg s rlFn_eq r⟩,
  ⟨rfl, rfl, _, rfl, wroteShifted_putReg s rrFn_eq r⟩,
  ⟨rfl, rfl, _, rfl, wroteShifted_putReg s slaFn_eq r⟩,
  ⟨rfl, rfl, _, rfl, wroteShifted_putReg s sraFn_eq r⟩,
  ⟨rfl, rfl, _, rfl, wroteShifted_putReg s swapFn_eq r⟩,
  ⟨rfl, rfl, _, rfl, wroteShifted_putReg s srlFn_eq r⟩⟩

/-- Settles O53: every form writes the byte at HL and the flags with a function of R239. -/
theorem shiftsOfMemory : Obligations.ShiftsOfMemory := fun s => ⟨
  ⟨rfl, rfl, _, rfl, wroteShifted_putAtHl s rlcFn_eq⟩,
  ⟨rfl, rfl, _, rfl, wroteShifted_putAtHl s rrcFn_eq⟩,
  ⟨rfl, rfl, _, rfl, wroteShifted_putAtHl s rlFn_eq⟩,
  ⟨rfl, rfl, _, rfl, wroteShifted_putAtHl s rrFn_eq⟩,
  ⟨rfl, rfl, _, rfl, wroteShifted_putAtHl s slaFn_eq⟩,
  ⟨rfl, rfl, _, rfl, wroteShifted_putAtHl s sraFn_eq⟩,
  ⟨rfl, rfl, _, rfl, wroteShifted_putAtHl s swapFn_eq⟩,
  ⟨rfl, rfl, _, rfl, wroteShifted_putAtHl s srlFn_eq⟩⟩

/-- Settles O51: the four rotates of R239 on A, with Z clear. -/
theorem accumulatorRotatesClearZ : Obligations.AccumulatorRotatesClearZ := fun s => ⟨
  ⟨rfl, rfl, _, rfl, wroteRotatedA_putReg s rlcFn_eq⟩,
  ⟨rfl, rfl, _, rfl, wroteRotatedA_putReg s rrcFn_eq⟩,
  ⟨rfl, rfl, _, rfl, wroteRotatedA_putReg s rlFn_eq⟩,
  ⟨rfl, rfl, _, rfl, wroteRotatedA_putReg s rrFn_eq⟩⟩

/-! ### BIT, RES and SET (R260 to R265) -/

/-- Settles O54: BIT writes the flags alone; RES and SET write `resBit` and `setBit` of the operand, which replace one bit. -/
theorem bitTestResetSet : Obligations.BitTestResetSet := fun s b r => ⟨
  ⟨rfl, rfl, _, rfl, wroteFlags_setFlags s (bitFlags (s.reg r) b s.flags) 2⟩,
  ⟨rfl, rfl, _, rfl, wroteFlags_setFlags s (bitFlags s.atHl b s.flags) 2⟩,
  ⟨_, bitReplaced_resBit (s.reg r) b, rfl, rfl, _, rfl, wroteReg_setReg s r (resBit (s.reg r) b) 2⟩,
  ⟨_, bitReplaced_resBit s.atHl b, rfl, rfl, _, rfl, wroteByte_writeBus s s.hl (resBit s.atHl b) 2⟩,
  ⟨_, bitReplaced_setBit (s.reg r) b, rfl, rfl, _, rfl, wroteReg_setReg s r (setBit (s.reg r) b) 2⟩,
  ⟨_, bitReplaced_setBit s.atHl b, rfl, rfl, _, rfl, wroteByte_writeBus s s.hl (setBit s.atHl b) 2⟩⟩

end Sys2Proof.Machine

/-! PROOFS. The system instructions (46_system.md R270 to R274): each form's own effect, and EI followed by DI, where with interrupts
disabled nothing follows an instruction in its step but the LCD tick. -/

namespace Sys2Proof.Machine

/-! ### The rest of a step with interrupts disabled (R341, R349) -/

section disabled
variable {s t : State}

/-- An EI delay that was not sampled, or that the instruction cleared, does not end (R341). -/
theorem promoteIme_of_no_delay {b : Bool} (hp : (b && s.imePending) = false) : s.promoteIme b = s := by
  simp [State.promoteIme, hp]

/-- With IME clear the interrupt check can only end HALT, so out of HALT it does nothing (R349). -/
theorem interruptCheck_of_disabled (hi : s.ime = false) (hh : s.halted = false) : s.interruptCheck = s := by
  rcases interruptCheck_cases s with ⟨-, h⟩ | ⟨-, -, h⟩ | ⟨hime, -⟩
  · exact h
  · rw [h, ← hh]
  · exact absurd (hi.symm.trans hime) Bool.false_ne_true

/-- With IME clear and no EI delay at its end, an instruction is followed by the LCD tick alone (R340, R341). -/
theorem step_of_exec_disabled (hf : s.fatal = none) (hh : s.halted = false) (he : exec s.fetch s = .next t) (ht : t.fatal = none)
    (hth : t.halted = false) (hi : t.ime = false) (hp : (s.imePending && t.imePending) = false) :
    step s = .next (t.tick (cycleCost s.fetch s)) := by
  have hcheck := interruptCheck_of_disabled (s := t.tick (cycleCost s.fetch s)) (by simpa using hi) (by simpa using hth)
  rw [step_of_exec hf hh he ht, State.finishStep, promoteIme_of_no_delay hp, hcheck]

/-- The step of EI, with IME clear and no EI delay running, only starts the delay (R274). -/
theorem step_of_ei (hf : s.fatal = none) (hh : s.halted = false) (hi : s.ime = false) (hp : s.imePending = false) (he : s.fetch = .ei) :
    step s = .next (({ s with imePending := true }.advance 1).tick (cycleCost .ei s)) := by
  have hexec : exec s.fetch s = .next ({ s with imePending := true }.advance 1) := by rw [he]; rfl
  rw [step_of_exec_disabled hf hh hexec hf hh hi (by rw [hp]; rfl), he]

/-- The step of DI clears IME and cancels an EI delay, whatever they were (R273). -/
theorem step_of_di (hf : s.fatal = none) (hh : s.halted = false) (he : s.fetch = .di) :
    step s = .next (({ s with ime := false, imePending := false }.advance 1).tick (cycleCost .di s)) := by
  have hexec : exec s.fetch s = .next ({ s with ime := false, imePending := false }.advance 1) := by rw [he]; rfl
  rw [step_of_exec_disabled hf hh hexec hf hh rfl (Bool.and_false _), he]

end disabled

/-- Settles O56: EI's step leaves IME clear, so its check dispatches nothing; DI's cancels the delay before it ends. -/
theorem eiThenDiNeverEnables : Obligations.EiThenDiNeverEnables := by
  intro s t u hf hh hi hp hei hst hdi htu
  rw [step_of_ei hf hh hi hp hei] at hst
  obtain rfl := Host.Outcome.next.inj hst
  rw [step_of_di (by simpa using hf) (by simpa using hh) hdi] at htu
  obtain rfl := Host.Outcome.next.inj htu
  refine ⟨by simp, by simp, ?_, by simp⟩
  simpa using BitVec.add_assoc s.pc 1 1

/-! ### Each instruction's own effect (R270 to R274) -/

/-- Settles O55: NOP advances PC; the others are record updates, and STOP latches its fatal condition. -/
theorem systemInstructions : Obligations.SystemInstructions := fun s => ⟨
  ⟨rfl, rfl, _, rfl, wentTo_advance s 1⟩,
  ⟨rfl, rfl, _, rfl, rfl⟩,
  ⟨rfl, rfl, _, rfl, rfl⟩,
  ⟨rfl, rfl, _, rfl, rfl⟩,
  rfl, rfl⟩

end Sys2Proof.Machine

/-! PROOFS. The LCD family (50_lcd_ppu.md): the palette's byte form, the register table, the mode state machine's tick, and the pixels
that rendering a scanline writes. -/

namespace Sys2Proof.Machine

/-! ### The palette (R310) -/

/-- A palette read from a byte gives pixel value `v` the byte's bits `2v+1..2v`. -/
theorem Palette.shade_fromByte (b : Byte) (v : Shade) : (Palette.fromByte b).shade v = b.extractLsb' (2 * v.toNat) 2 := by
  obtain rfl | rfl | rfl | rfl : v = 0 ∨ v = 1 ∨ v = 2 ∨ v = 3 := by revert v; decide
  all_goals rfl

/-- The byte form holds every field of the palette. -/
@[simp] theorem Palette.fromByte_toByte (p : Palette) : Palette.fromByte p.toByte = p := by
  obtain ⟨p0, p1, p2, p3⟩ := p
  simp only [Palette.fromByte, Palette.mk.injEq]
  refine ⟨?_, ?_, ?_, ?_⟩
  all_goals
    refine BitVec.eq_of_getLsbD_eq fun i hi => ?_
    rw [BitVec.getLsbD_extractLsb', getLsbD_toByte]
    interval_cases i <;> rfl

/-- The shade of a pixel value is its two bits of the byte form. -/
theorem Palette.shade_eq_extractLsb'_toByte (p : Palette) (v : Shade) : p.shade v = p.toByte.extractLsb' (2 * v.toNat) 2 := by
  rw [← Palette.shade_fromByte, Palette.fromByte_toByte]

/-- A pixel value named by its index. -/
theorem toNat_pixelValue (i : Fin 4) : (BitVec.ofNat 2 i).toNat = i := Nat.mod_eq_of_lt i.isLt

/-- Settles O30: each composite of the two conversions is the identity, and a shade is its two bits of the byte. -/
theorem paletteByteRoundTrip : Obligations.PaletteByteRoundTrip := fun b p =>
  ⟨Palette.toByte_fromByte b, Palette.fromByte_toByte p, fun i => by
    rw [Palette.shade_fromByte, toNat_pixelValue]⟩

/-! ### The register table (R330 to R335) -/

/-- The stored select bits are STAT's bits 6..3 (R331). -/
theorem extractLsb'_select_stat (l : Lcd) : l.stat.extractLsb' 3 4 = l.statSel := by
  refine BitVec.eq_of_getLsbD_eq fun i hi => ?_
  rw [BitVec.getLsbD_extractLsb', getLsbD_stat]
  interval_cases i <;> rfl

/-- The mode's code is STAT's bits 1..0 (R331). -/
theorem extractLsb'_mode_stat (l : Lcd) : l.stat.extractLsb' 0 2 = l.mode.code := by
  refine BitVec.eq_of_getLsbD_eq fun i hi => ?_
  rw [BitVec.getLsbD_extractLsb', getLsbD_stat]
  interval_cases i <;> rfl

/-- Settles O27: the router reaches one field of the LCD controller at each address; STAT and BGP compose and split theirs. -/
theorem lcdRegisterTable : Obligations.LcdRegisterTable := by
  intro s v
  have hstat : s.readBus 0xFF41 = s.lcd.stat := rfl
  have hbgp : s.readBus 0xFF47 = s.lcd.bgp.toByte := rfl
  have hwrite : s.writeBus 0xFF47 v = { s with lcd := { s.lcd with bgp := Palette.fromByte v } } := rfl
  refine ⟨⟨?_, ?_, ?_, ?_⟩, rfl, rfl, rfl, fun i => ?_, ?_, fun i => ?_, ?_, ⟨rfl, rfl⟩, ⟨rfl, rfl⟩, ⟨rfl, rfl⟩, ⟨rfl, rfl⟩, ⟨rfl, rfl⟩,
    ⟨rfl, rfl⟩, ⟨rfl, rfl⟩, ⟨rfl, rfl⟩, ⟨rfl, rfl⟩⟩
  · rw [hstat, getLsbD_stat]; rfl
  · rw [hstat, extractLsb'_select_stat]
  · rw [hstat, getLsbD_stat]; rfl
  · rw [hstat, extractLsb'_mode_stat]; rfl
  · rw [hbgp, Palette.shade_eq_extractLsb'_toByte, toNat_pixelValue]
  · rw [hwrite]; exact Palette.toByte_fromByte v
  · rw [hwrite, Palette.shade_fromByte, toNat_pixelValue]
  · rw [hwrite]

/-! ### The tick (R320 to R325) -/

/-- Rendering does not look at the counter. -/
theorem renderScanline_setCounter_screen (s : State) (k : Nat) : (s.setCounter k).renderScanline.screen = s.renderScanline.screen := by
  have hcols : (s.setCounter k).renderColumns Config.visibleWidth = s.renderColumns Config.visibleWidth :=
    renderColumns_congr s s.lcd.mode k _
  unfold State.renderScanline
  rw [hcols, apply_ite State.screen, apply_ite State.screen]
  rfl

section tickReached
variable {s : State} {n : Nat}

/-- The end of SearchingOAM (R320, R321). -/
theorem tick_of_searchingOam (hm : s.lcd.mode = .searchingOam) (hc : Config.oamCycles ≤ s.lcd.counter + n) :
    s.tick n = { s with lcd := { s.lcd with counter := 0, mode := .transferring } } := by
  have ht : s.lcd.mode.threshold ≤ s.lcd.counter + n := hm ▸ hc
  simp only [tick_reached ht, State.modeTransition, State.setCounter, hm]

/-- The end of Transferring, which renders the scanline (R320, R325). -/
theorem tick_of_transferring (hm : s.lcd.mode = .transferring) (hc : Config.transferCycles ≤ s.lcd.counter + n) :
    s.tick n = { s with lcd := { s.lcd with counter := 0, mode := .hblank }, screen := s.renderScanline.screen } := by
  have ht : s.lcd.mode.threshold ≤ s.lcd.counter + n := hm ▸ hc
  rw [tick_reached ht, State.modeTransition, show (s.setCounter 0).lcd.mode = .transferring from hm, renderScanline_frame,
    renderScanline_setCounter_screen]
  rfl

/-- The end of HBlank, with the counter cleared first (R320, R322). -/
theorem tick_of_hblank (hm : s.lcd.mode = .hblank) (hc : Config.hblankCycles ≤ s.lcd.counter + n) :
    s.tick n = (s.setCounter 0).leaveHblank := by
  have ht : s.lcd.mode.threshold ≤ s.lcd.counter + n := hm ▸ hc
  rw [tick_reached ht, State.modeTransition, show (s.setCounter 0).lcd.mode = .hblank from hm]

/-- The end of a VBlank line, with the counter cleared first (R320, R323). -/
theorem tick_of_vblank (hm : s.lcd.mode = .vblank) (hc : Config.vblankCycles ≤ s.lcd.counter + n) :
    s.tick n = (s.setCounter 0).vblankLine := by
  have ht : s.lcd.mode.threshold ≤ s.lcd.counter + n := hm ▸ hc
  rw [tick_reached ht, State.modeTransition, show (s.setCounter 0).lcd.mode = .vblank from hm]

end tickReached

/-- Settles O57: below the threshold the counter alone moves; at it the mode's transition starts from counter 0. -/
theorem tickAdvancesModes : Obligations.TickAdvancesModes := by
  intro s n c ly
  have hly_iff : ly = 144 ↔ ly.toNat = Config.vblankLine := BitVec.toNat_inj.symm
  refine ⟨fun m thr hmem hm hc => ?_, tick_of_searchingOam, tick_of_transferring,
    fun hm hc hly => (tick_of_hblank hm hc).trans (if_neg (hly_iff.not.mp hly)),
    fun hm hc hly => (tick_of_hblank hm hc).trans (if_pos (hly_iff.mp hly)),
    fun hm hc hly => (tick_of_vblank hm hc).trans (if_neg (Nat.not_lt.mpr hly)),
    fun hm hc hly => (tick_of_vblank hm hc).trans (if_pos hly)⟩
  have hthr : m.threshold = thr := by
    simp only [List.mem_cons, Prod.mk.injEq, List.not_mem_nil, or_false] at hmem
    obtain ⟨rfl, rfl⟩ | ⟨rfl, rfl⟩ | ⟨rfl, rfl⟩ | ⟨rfl, rfl⟩ := hmem <;> rfl
  exact tick_below (by rwa [hm, hthr])

/-! ### The pixels of a scanline (R300 to R310, R325) -/

/-- Rendering the first `n` columns gives them their pixels and leaves every other entry of the buffer. -/
theorem get_renderColumns (s : State) {n row col : Nat} (hn : n ≤ 256) (hcol : col < 256) :
    Store.get Config.screenInit (s.renderColumns n) (Config.screenWidth * row + col) =
      if row = s.lcd.scanline.toNat ∧ col < n then s.pixelShade col else s.screenAt row col := by
  induction n with
  | zero => simp [State.renderColumns, State.screenAt]
  | succ n ih =>
    have hkey : Config.screenWidth * row + col = Config.screenWidth * s.lcd.scanline.toNat + n ↔
        row = s.lcd.scanline.toNat ∧ col = n := by
      simp only [Config.screenWidth]; omega
    rw [State.renderColumns, Store.get_put, ih (by omega)]
    by_cases h : row = s.lcd.scanline.toNat ∧ col = n
    · obtain ⟨rfl, rfl⟩ := h
      simp
    · rw [if_neg (hkey.not.mpr h)]
      exact if_congr (by omega) rfl rfl

theorem toNat_ofBool_append_ofBool (hi lo : Bool) : (BitVec.ofBool hi ++ BitVec.ofBool lo).toNat = 2 * hi.toNat + lo.toNat := by
  cases hi <;> cases lo <;> rfl

/-- A pixel value is its two planes' bits, the second byte's the high one (R300). -/
theorem toNat_tilePixel (s : State) (t r c : Nat) : (s.tilePixel t r c).toNat =
    2 * ((s.memAt (Config.tileBase + 16 * t + 2 * r + 1)).getLsbD (7 - c)).toNat +
      ((s.memAt (Config.tileBase + 16 * t + 2 * r)).getLsbD (7 - c)).toNat :=
  toNat_ofBool_append_ofBool _ _

/-- The pixel of a column, at the byte sums of scroll and position, as its two bits of the palette's byte form (R305, R306, R325). -/
theorem pixelShade_eq (s : State) (col : Nat) : s.pixelShade col =
    let y := (s.lcd.scy + s.lcd.scanline).toNat
    let x := (s.lcd.scx + BitVec.ofNat 8 col).toNat
    s.lcd.bgp.toByte.extractLsb' (2 * (s.tilePixel (s.mapEntry (y / 8) (x / 8)).toNat (y % 8) (x % 8)).toNat) 2 := by
  have hx : (s.lcd.scx + BitVec.ofNat 8 col).toNat = (s.lcd.scx.toNat + col) % 256 := by
    rw [BitVec.toNat_add, BitVec.toNat_ofNat, Nat.add_mod_mod]
  simp only [hx, BitVec.toNat_add]
  exact Palette.shade_eq_extractLsb'_toByte _ _

/-- Settles O59: the columns are rendered one by one, each at the byte sums of scroll and position. -/
theorem scanlineIsRenderedFromTiles : Obligations.ScanlineIsRenderedFromTiles := by
  intro s
  refine ⟨fun hoff => if_neg (ne_true_of_eq_false hoff), fun hon => ⟨by rw [renderScanline_frame], fun row col hcol => ?_⟩⟩
  have hrender : s.renderScanline = { s with screen := s.renderColumns Config.visibleWidth } := if_pos hon
  rw [hrender]
  refine (get_renderColumns s (by decide) hcol).trans (if_congr Iff.rfl ?_ rfl)
  rw [pixelShade_eq]
  simp only [toNat_tilePixel]
  rfl

end Sys2Proof.Machine

/-! PROOFS. The exceptions family (60_exceptions.md R340 to R352): the step of a running, a halted and a fatal machine, the interrupt check,
a dispatch, the host's request lines. -/

namespace Sys2Proof.Machine

/-! ### The three kinds of step (R340 to R345) -/

/-- Settles O7: the instruction decoded at PC is the one fetched, and the rest of the step follows it. -/
theorem stepRunsDecodedInstruction : Obligations.StepRunsDecodedInstruction := by
  intro s t i rest hf hh hd he ht
  obtain rfl := fetch_of_decode hd
  exact step_of_exec hf hh he ht

/-- An instruction that raises a fatal condition latches it and does nothing else (R345). -/
theorem exec_of_raises {i : Instr} {f : Fatal} (s : State) (h : i.raises = some f) : exec i s = .next { s with fatal := some f } := by
  obtain ⟨t, he, -, hraise⟩ := exec_answers i s
  rw [he, hraise f h]

/-- Settles O9: the instruction's effect is the latch alone, the step ends with it, and no step follows. -/
theorem fatalStepChangesOnlyFatal : Obligations.FatalStepChangesOnlyFatal := by
  intro i s f hr
  refine ⟨exec_of_raises s hr, ?_, fun t => step_of_fatal⟩
  rintro hf hh rfl
  exact step_of_exec_fatal hf hh (exec_of_raises s hr) rfl

/-- What an instruction adds to a state without a fatal condition is the one it raises (R342). -/
theorem fatal_of_exec {i : Instr} {s t : State} (hf : s.fatal = none) (he : exec i s = .next t) : t.fatal = i.raises := by
  obtain ⟨u, hu, hkeep, hraise⟩ := exec_answers i s
  obtain rfl := Host.Outcome.next.inj (he.symm.trans hu)
  cases hr : i.raises with
  | none => rw [hkeep hr, hf]
  | some f => rw [hraise f hr]

/-- The instructions that raise a fatal condition are STOP and the eleven unassigned bytes, reported with the base table
(R343, R344). -/
theorem eq_stop_or_unassigned_of_raises {i : Instr} {f : Fatal} (h : i.raises = some f) :
    i = .stop ∨ ∃ b ∈ unassignedBytes, encode i = [b] ∧ f = .decodeFailure b .base := by
  cases i with
  | stop => exact .inl rfl
  | illegalD3 | illegalDB | illegalDD | illegalE3 | illegalE4 | illegalEB | illegalEC | illegalED | illegalF4 | illegalFC
  | illegalFD => cases h; exact .inr ⟨_, by decide, rfl, rfl⟩
  | _ => cases h

/-- The byte at PC is the first byte of the instruction fetched there (R90). -/
theorem head?_encode_fetch (s : State) : (encode s.fetch).head? = some (s.readBus s.pc) := head?_encode_decodeBytes _ _ _

/-- A step that latches a fatal condition ended with the instruction that raised it: what follows an instruction raises none (R342). -/
theorem exec_of_step_fatal {s t : State} (h : step s = .next t) (ht : t.fatal ≠ none) :
    s.halted = false ∧ exec s.fetch s = .next t := by
  obtain ⟨hf, ⟨-, rfl⟩ | ⟨-, u, -, hu, rfl⟩ | ⟨hh, he, -⟩⟩ := step_cases h
  · exact absurd ((finishStep_fatal _ _ _).trans hf) ht
  · exact absurd ((finishStep_fatal _ _ _).trans hu) ht
  · exact ⟨hh, he⟩

/-- Settles O10: the step ended with an instruction that raises the condition, and the byte at PC is that instruction's first. -/
theorem onlyStopAndUnassignedBytesAreFatal : Obligations.OnlyStopAndUnassignedBytesAreFatal := by
  intro s t hf h ht
  obtain ⟨hh, he⟩ := exec_of_step_fatal h ht
  have hraises := fatal_of_exec hf he
  obtain ⟨f, htf⟩ := Option.ne_none_iff_exists'.mp ht
  refine ⟨hh, hraises, (eq_stop_or_unassigned_of_raises (hraises.symm.trans htf)).imp_right ?_⟩
  rintro ⟨b, hb, henc, rfl⟩
  have hhead := head?_encode_fetch s
  rw [henc] at hhead
  exact ⟨b, hb, (Option.some.inj hhead).symm, htf⟩

/-- Settles O11: nothing runs between the sample of the EI delay and its end, so a pending delay ends. -/
theorem haltedStepOnlyWaits : Obligations.HaltedStepOnlyWaits := by
  intro s hf hh
  rw [step_of_halted hf hh, State.finishStep, State.promoteIme, Bool.and_self]
  rfl

/-! ### The interrupt check (R349, R351) -/

/-- The check leaves the machine halted only where no source is pending (R349). -/
theorem pendingIrqs_of_interruptCheck_halted {s : State} (h : s.interruptCheck.halted = true) : s.interruptCheck.pendingIrqs = 0 := by
  rcases interruptCheck_cases s with ⟨hp, e⟩ | ⟨-, -, e⟩ | ⟨-, k, -, e⟩
  · rwa [e]
  · rw [e] at h; cases h
  · rw [e, dispatch_halted] at h; cases h

/-- Settles O13: a step ends with the interrupt check, or with a fatal condition on a machine that was not halted. -/
theorem haltedOnlyWhileNothingPending : Obligations.HaltedOnlyWhileNothingPending := by
  intro s t h hth
  obtain ⟨hf, ⟨-, rfl⟩ | ⟨-, u, -, -, rfl⟩ | ⟨hh, he, ht⟩⟩ := step_cases h
  · exact pendingIrqs_of_interruptCheck_halted hth
  · exact pendingIrqs_of_interruptCheck_halted hth
  · obtain ⟨f, htf⟩ := Option.ne_none_iff_exists'.mp ht
    rw [exec_of_raises s ((fatal_of_exec hf he).symm.trans htf)] at he
    obtain rfl := Host.Outcome.next.inj he
    exact absurd (hh.symm.trans hth) Bool.false_ne_true

/-- A source is pending where it is enabled and requested; the mask keeps the five sources' bits (R349). -/
theorem getLsbD_pendingIrqs (s : State) {j : Nat} (hj : j < 5) :
    s.pendingIrqs.getLsbD j = (s.ie.getLsbD j && s.ifReg.getLsbD j) := by
  have hmask : Config.irqMask.getLsbD j = true := by revert j; decide
  simp only [State.pendingIrqs, BitVec.getLsbD_and, hmask, Bool.and_true]

theorem IrqSource.bit_lt (k : IrqSource) : k.bit < 5 := by cases k <;> decide

/-- With no source pending the check changes nothing (R349). -/
theorem interruptCheck_of_none_pending {s : State} (hp : s.pendingIrqs = 0) : s.interruptCheck = s := by
  have hsel : selectIrq s.pendingIrqs = none := by rw [hp]; rfl
  simp only [State.interruptCheck, hsel]

/-- With a source pending and IME clear the check only ends HALT (R349). -/
theorem interruptCheck_of_ime_clear {s : State} (hp : s.pendingIrqs ≠ 0) (hi : s.ime = false) :
    s.interruptCheck = { s with halted := false } := by
  rcases interruptCheck_cases s with ⟨hz, -⟩ | ⟨-, -, e⟩ | ⟨hime, -⟩
  · exact absurd hz hp
  · exact e
  · exact absurd (hi.symm.trans hime) Bool.false_ne_true

/-- With IME set, the check dispatches the source that the selection answers (R349). -/
theorem interruptCheck_of_select {s : State} {k : IrqSource} (hi : s.ime = true) (hk : selectIrq s.pendingIrqs = some k) :
    s.interruptCheck = State.dispatch k { s with halted := false } := by
  simp only [State.interruptCheck, hk, hi, ↓reduceIte]

/-- Settles O14: the cases of the check; a source with no lower one pending is the one selected. -/
theorem interruptCheckTakesLowestPending : Obligations.InterruptCheckTakesLowestPending := by
  refine fun s => ⟨interruptCheck_of_none_pending, interruptCheck_of_ime_clear, fun hi k hk hlow => ?_⟩
  refine interruptCheck_of_select hi (selectIrq_eq_some.mpr ⟨?_, fun j hj => ?_⟩)
  · rw [getLsbD_pendingIrqs s k.bit_lt]; exact hk
  · rw [getLsbD_pendingIrqs s (hj.trans k.bit_lt)]; exact hlow j hj

/-! ### Dispatch (R350) -/

/-- The service addresses (R350). -/
theorem IrqSource.vector_eq (k : IrqSource) : k.vector = 0x0040 + 8 * BitVec.ofNat 16 k.bit := by cases k <;> rfl

/-- Settles O15: a dispatch is a push and a jump from the state with the request, IME and a pending EI cleared. -/
theorem dispatchEntersHandler : Obligations.DispatchEntersHandler := fun k s =>
  ⟨(dispatch_pc k s).trans k.vector_eq, dispatch_sp k s, dispatch_regs k s, dispatch_flags k s,
    (untouchedBut_push16 { s with ime := false, imePending := false, ifReg := s.ifReg &&& ~~~(oneBit k.bit) } s.pc).withCpu _ _ _ _⟩

/-! ### The host's request lines (R352) -/

/-- A request latched twice is latched once (R352). -/
theorem requestIrq_requestIrq (s : State) (k : IrqSource) : (s.requestIrq k).requestIrq k = s.requestIrq k := by
  simp only [State.requestIrq, BitVec.or_assoc, BitVec.or_self]

/-- Settles O32: each line's bit, and a request latched twice. -/
theorem hostLineLatchesRequest : Obligations.HostLineLatchesRequest :=
  fun s k => ⟨by cases k <;> rfl, requestIrq_requestIrq s k.source⟩

end Sys2Proof.Machine

/-! PROOFS. The reset and hazards family (70_reset_and_hazards.md R384, R392): the costs, the host's moves, the length of a visible
scanline. -/

namespace Sys2Proof.Machine

/-! ### The costs (R392) -/

theorem extCycles_mem (b : Byte) : extCycles b ∈ [8, 12, 16] := by
  unfold extCycles
  split <;> decide

/-- The costs of the instructions that raise no fatal condition (R392). -/
theorem cycleCost_range {i : Instr} (s : State) (h : i.raises = none) : 4 ≤ cycleCost i s ∧ cycleCost i s ≤ 24 := by
  cases i with
  | prefixByte =>
    have hmem := extCycles_mem (s.readBus (s.pc + 1))
    simp only [List.mem_cons, List.not_mem_nil, or_false] at hmem
    simp only [cycleCost]
    omega
  | jpCcNn | callCcNn | jrCcE | retCc => simp only [cycleCost]; split <;> decide
  | stop | illegalD3 | illegalDB | illegalDD | illegalE3 | illegalE4 | illegalEB | illegalEC | illegalED | illegalF4 | illegalFC
  | illegalFD => cases h
  | _ => simp only [cycleCost]; decide

/-- Settles O17: the costs are multiples of 4, and in range. -/
theorem costsAreMultiplesOfFour : Obligations.CostsAreMultiplesOfFour :=
  fun i s h => ⟨cycleCost_mod_four i s, cycleCost_range s h⟩

/-! ### The host's moves (R384) -/

/-- The image load writes canonical memory and touches no other device (R57). -/
theorem keepsDevices_loadImage (s : State) (image : List Byte) : KeepsDevices s (s.loadImage image) := by
  have hframe : s.loadImage image = { s with mem := (s.loadImage image).mem } := loadFrom_frame image s 0
  refine ⟨State.loadFrom_wf image s 0, ?_, ?_, ?_, ?_⟩ <;> rw [hframe]

/-- Settles O20: none of the three moves reaches the mode state machine, and the image load writes bytes as a store does. -/
theorem hostMovesKeepMachineInvariant : Obligations.HostMovesKeepMachineInvariant := by
  intro s k image v hs
  have hraise : KeepsDevices s (s.raiseIrq k) := .of_eq rfl rfl rfl
  have hset : KeepsDevices s (s.setState v) := ⟨id, rfl, rfl, rfl, rfl⟩
  exact ⟨hraise.inv hs, (keepsDevices_loadImage s image).inv hs, hset.inv hs⟩

/-! ### The length of a visible scanline (R320 to R322, R392) -/

/-- The cycles of a visible scanline at which a mode can begin: each mode before it lasts its threshold and at most 20 cycles more, since
a tick of at most 24 starts at least 4 below the threshold. -/
def LcdMode.BeginsAt : LcdMode → Nat → Prop
  | .searchingOam, b => b = 0
  | .transferring, b => 80 ≤ b ∧ b ≤ 100
  | .hblank, b => 252 ≤ b ∧ b ≤ 292
  | .vblank, _ => False

/-- The visible scanline began `e` cycles ago: its present mode began at a cycle `b`, and the counter, which restarts there, has counted
the cycles since (R320). -/
def LineClock (e : Nat) (l : Lcd) : Prop :=
  l.counter < l.mode.threshold ∧ l.counter % 4 = 0 ∧ ∃ b, l.mode.BeginsAt b ∧ e = b + l.counter

section lineClock
variable {e n : Nat} {s : State}

/-- With the counter at 0, the clock says no more than that the present mode begins now. -/
theorem lineClock_of_begins {l : Lcd} {m : LcdMode} (hm : l.mode = m) (hc : l.counter = 0) (hb : m.BeginsAt e) : LineClock e l :=
  ⟨hc.trans_lt (threshold_pos _), by rw [hc], e, hm ▸ hb, by rw [hc, Nat.add_zero]⟩

/-- The end of HBlank moves to the next scanline (R322). -/
theorem leaveHblank_scanline (s : State) : s.leaveHblank.lcd.scanline = s.lcd.scanline + 1 := by
  unfold State.leaveHblank
  simp only
  split <;> rfl

/-- A tick within a visible scanline keeps the scanline and its clock, or it is the end of HBlank, 456 to 516 cycles after the line's
start (R320 to R322, R392). -/
theorem tick_of_lineClock (h : LineClock e s.lcd) (h4 : n % 4 = 0) (hn : n ≤ 24) :
    ((s.tick n).lcd.scanline = s.lcd.scanline ∧ LineClock (e + n) (s.tick n).lcd) ∨
    ((s.tick n).lcd.scanline ≠ s.lcd.scanline ∧ 456 ≤ e + n ∧ e + n ≤ 516) := by
  obtain ⟨hlt, hmod, b, hb, rfl⟩ := h
  by_cases hbelow : s.lcd.counter + n < s.lcd.mode.threshold
  · rw [tick_below hbelow]
    exact .inl ⟨rfl, hbelow, by simp only [setCounter_lcd]; omega, b, hb, Nat.add_assoc _ _ _⟩
  have hreach := Nat.le_of_not_lt hbelow
  cases hm : s.lcd.mode with
  | searchingOam =>
    simp only [hm, LcdMode.threshold, Config.oamCycles, LcdMode.BeginsAt] at hlt hreach hb
    rw [tick_of_searchingOam hm hreach]
    exact .inl ⟨rfl, lineClock_of_begins rfl rfl (show _ ∧ _ by omega)⟩
  | transferring =>
    simp only [hm, LcdMode.threshold, Config.transferCycles, LcdMode.BeginsAt] at hlt hreach hb
    rw [tick_of_transferring hm hreach]
    exact .inl ⟨rfl, lineClock_of_begins rfl rfl (show _ ∧ _ by omega)⟩
  | hblank =>
    simp only [hm, LcdMode.threshold, Config.hblankCycles, LcdMode.BeginsAt] at hlt hreach hb
    rw [tick_of_hblank hm hreach, leaveHblank_scanline]
    exact .inr ⟨by simp, by omega⟩
  | vblank => rw [hm] at hb; exact hb.elim

/-- Ticks that never change the scanline keep its clock. -/
theorem lineClock_ticks {costs : List Nat} (h : LineClock e s.lcd) (hcosts : ∀ c ∈ costs, c % 4 = 0 ∧ c ≤ 24)
    (hkeep : ∀ k, k ≤ costs.length → (s.ticks (costs.take k)).lcd.scanline = s.lcd.scanline) :
    LineClock (e + costs.sum) (s.ticks costs).lcd := by
  induction costs generalizing s e with
  | nil => exact h
  | cons c cs ih =>
    obtain ⟨⟨h4, hc⟩, hcs⟩ := List.forall_mem_cons.mp hcosts
    have hline : (s.tick c).lcd.scanline = s.lcd.scanline := hkeep 1 (by simp)
    obtain ⟨-, hclock⟩ | ⟨hne, -⟩ := tick_of_lineClock h h4 hc
    · rw [List.sum_cons, ← Nat.add_assoc]
      exact ih hclock hcs fun k hk => (hkeep (k + 1) (Nat.succ_le_succ hk)).trans hline.symm
    · exact absurd hline hne

end lineClock

/-- Settles O60: the clock runs from the line's start to the tick that ends it. -/
theorem visibleLineLasts456To516 : Obligations.VisibleLineLasts456To516 := by
  intro s costs last hm h0 _ hcosts hkeep hlast
  obtain ⟨hcs, hl⟩ := List.forall_mem_append.mp hcosts
  obtain ⟨hl4, -, hl24⟩ := hl last (List.mem_singleton.mpr rfl)
  have hstart : LineClock 0 s.lcd := lineClock_of_begins hm h0 rfl
  have hclock := lineClock_ticks hstart (fun c hc => (hcs c hc).imp_right And.right) hkeep
  have hticks : s.ticks (costs ++ [last]) = (s.ticks costs).tick last := List.foldl_append
  have hline : (s.ticks costs).lcd.scanline = s.lcd.scanline := by simpa using hkeep costs.length le_rfl
  rw [hticks, ← hline] at hlast
  obtain ⟨heq, -⟩ | ⟨-, hbounds⟩ := tick_of_lineClock hclock hl4 hl24
  · exact absurd heq hlast
  · simpa [List.sum_append] using hbounds

end Sys2Proof.Machine
